-- ==== Sys2Proof/Word.lean ====
section
/-! DEFINITION. The word types of the NSE (spec R6, R7): everything is an unsigned bit vector of a fixed width. -/

namespace Sys2Proof

/-- One byte of BUF, a TCP flag set, a TTL, a protocol number (R6). -/
abbrev Byte := BitVec 8

/-- A port, a 16-bit checksum word, an MTU, a window (R6). -/
abbrev Half := BitVec 16

/-- A host register, an IPv4 address, a sequence number, a tick (R6). -/
abbrev Word := BitVec 32

/-- A 48-bit link-layer address (R6). -/
abbrev Mac := BitVec 48

end Sys2Proof
end

