-- ==== Sys2Proof/Config.lean ====
section
/-! DEFINITION. The implementation parameters of the NSE (spec R5), and the free values the spec leaves open. -/

namespace Sys2Proof

/-- The parameters of R5, one instance's. They are held in the state (log entry 4), so that a statement
about every state is a statement about every choice of them. -/
structure Config where
  /-- `SESS_ENTRIES`: inbound slots of the session table. -/
  sessEntries : Nat
  /-- `SESS_TIMEOUT`: the greatest age, in ticks, at which a slot is live (R181). -/
  sessTimeout : Nat
  /-- `ARP_ENTRIES`: entries of the ARP cache. -/
  arpEntries : Nat
  /-- `ARP_FRESH`: the greatest age, in ticks, at which an ARP entry is fresh (R121). -/
  arpFresh : Nat
  /-- `MSS_VALUE`: the value of the MSS option of a SYN (R147). -/
  mssValue : Half
  /-- `WSCALE`: the shift count of the window-scale option (R147). -/
  wscale : Byte
  /-- `UDP_ZERO_SUBST`: a computed UDP checksum of 0x0000 is sent as 0xFFFF (R153). -/
  udpZeroSubst : Bool
  /-- `BUF_BITS`: log2 of the size of BUF. -/
  bufBits : Nat
  /-- `TICK_BITS`: the width of the tick input (R42), at most the 32 bits of the registers that carry ticks
  (log entry 4). -/
  tickBits : Nat
  /-- `NSE_BASE`: where the platform places REG and the BUF port (R235, D4). The host's accesses are named by
  register offset (R67) and BUF address (R62), so no rule of the NSE reads it (log entry 4). -/
  nseBase : Nat
  deriving DecidableEq, Repr

/-- `BUF_SIZE = 2^BUF_BITS` (R5, R61). -/
def Config.bufSize (c : Config) : Nat := 2 ^ c.bufBits

/-- `SESS_TIMEOUT` of this hardware: OPEN, any legal value (D25). DESIGN CHOICE (log entry 3): a constant
that nothing can evaluate. -/
opaque Config.openSessTimeout : BitVec 32

/-- One less than `ARP_ENTRIES` of this hardware: OPEN, any legal value 1..255 (D32). DESIGN CHOICE (log
entry 3): a constant that nothing can evaluate. -/
opaque Config.openArpEntries : Fin 255

/-- `NSE_BASE` of this hardware: OPEN, platform-defined (R235, D4). DESIGN CHOICE (log entry 4): a constant that
nothing can evaluate. -/
opaque Config.openNseBase : Nat

/-- The tick input at power-up, which the spec leaves to the environment (R26, R42). DESIGN CHOICE (log
entry 5). -/
opaque Config.tickAtPowerUp : Word

/-- The value of the n-th initial sequence number taken after the listed inputs are used up: any value
(R43, R186, I5). DESIGN CHOICE (log entry 7). -/
opaque Config.freeIsn : Nat → Word

/-- What the n-th host read of a byte nothing has written returns, at an address: any value (I6). DESIGN
CHOICE (log entry 6). -/
opaque Config.freeByte : Nat → Nat → Byte

/-- This hardware's parameters: the values of R5, and the OPEN ones free (log entries 3 and 4). -/
def Config.thisHardware : Config where
  sessEntries := 16
  sessTimeout := Config.openSessTimeout.toNat
  arpEntries := Config.openArpEntries.val + 1
  arpFresh := 120
  mssValue := 1460#16
  wscale := 0#8
  udpZeroSubst := true
  bufBits := 16
  tickBits := 32
  nseBase := Config.openNseBase

end Sys2Proof
end

