-- ==== Sys2Proof/Syntax.lean ====
section
/-! DEFINITION. The commands of the NSE, one constructor for each row of the opcode map (spec R84). A command's
operands stand in the argument registers (R86), so a constructor carries only its defined MOD bit (R82). -/

namespace Sys2Proof

/-- A command of the NSE (R84). -/
inductive Instr where
  /-- NOP, 0x00 (R210). -/
  | nop
  /-- CSUM, 0x01 (R101). -/
  | csum
  /-- CSUM_FIXUP, 0x02 (R104). `w` is MOD bit W: false one 16-bit word, true two. -/
  | csumFixup (w : Bool)
  /-- CSUM_PSEUDO, 0x03 (R107). -/
  | csumPseudo
  /-- ARP_LOOKUP, 0x10 (R122). -/
  | arpLookup
  /-- ARP_UPDATE, 0x11 (R124). -/
  | arpUpdate
  /-- ARP_READ, 0x12 (R125). -/
  | arpRead
  /-- BUILD, 0x20 (R154). -/
  | build
  /-- REPLY, 0x21 (R155). -/
  | reply
  /-- SESS_FIND, 0x30 (R183). `syn` is MOD bit S. -/
  | sessFind (syn : Bool)
  /-- SESS_READ, 0x31 (R187). -/
  | sessRead
  /-- SESS_WRITE, 0x32 (R188). `stamp` is MOD bit T. -/
  | sessWrite (stamp : Bool)
  /-- SESS_FREE, 0x33 (R189). -/
  | sessFree
  deriving DecidableEq, Repr

end Sys2Proof
end

