-- ==== Sys2Proof/WellFormed.lean ====
section
/-! DEFINITION. What makes a command word's fields legal (spec R80 to R83, R89), and an instance's parameters
(R5). A command of `Instr` has no ill-formed value: its only parts are the MOD bits its row defines. -/

namespace Sys2Proof

/-- The three fields of a command word (R80). -/
structure CommandFields where
  /-- OPC, bits 7:0. -/
  opc : Byte
  /-- MOD, bits 15:8. -/
  mod : Byte
  /-- RSV, bits 31:16. -/
  rsv : Half
  deriving DecidableEq, Repr

/-- Why a command word selects no row of the opcode map (R85). -/
inductive CommandProblem where
  /-- OPC is not in the opcode map (R89). -/
  | unlistedOpc
  /-- A MOD bit is set that the command does not define (R82). -/
  | reservedMod
  /-- RSV is not zero (R83). -/
  | reservedRsv
  deriving DecidableEq, Repr

/-- The MOD bits a listed OPC defines (R82); none where the OPC is not listed (R89). -/
def definedModBits (opc : Byte) : Option Byte :=
  match opc with
  | 0x00#8 => some 0x00#8
  | 0x01#8 => some 0x00#8
  | 0x02#8 => some 0x01#8
  | 0x03#8 => some 0x00#8
  | 0x10#8 => some 0x00#8
  | 0x11#8 => some 0x00#8
  | 0x12#8 => some 0x00#8
  | 0x20#8 => some 0x00#8
  | 0x21#8 => some 0x00#8
  | 0x30#8 => some 0x01#8
  | 0x31#8 => some 0x00#8
  | 0x32#8 => some 0x01#8
  | 0x33#8 => some 0x00#8
  | _ => none

/-- The first reason, if any, why fields select no row (R85). -/
def CommandFields.problem (f : CommandFields) : Option CommandProblem :=
  if f.rsv ≠ 0#16 then some .reservedRsv
  else match definedModBits f.opc with
    | none => some .unlistedOpc
    | some bits => if f.mod &&& ~~~bits ≠ 0#8 then some .reservedMod else none

/-- The MOD byte that carries one MOD bit at MOD[0] (R82). -/
def modByte (b : Bool) : Byte := if b then 0x01#8 else 0x00#8

/-- The fields of a command's word (R82, R84). -/
def Instr.fields : Instr → CommandFields
  | .nop => ⟨0x00#8, 0#8, 0#16⟩
  | .csum => ⟨0x01#8, 0#8, 0#16⟩
  | .csumFixup w => ⟨0x02#8, modByte w, 0#16⟩
  | .csumPseudo => ⟨0x03#8, 0#8, 0#16⟩
  | .arpLookup => ⟨0x10#8, 0#8, 0#16⟩
  | .arpUpdate => ⟨0x11#8, 0#8, 0#16⟩
  | .arpRead => ⟨0x12#8, 0#8, 0#16⟩
  | .build => ⟨0x20#8, 0#8, 0#16⟩
  | .reply => ⟨0x21#8, 0#8, 0#16⟩
  | .sessFind syn => ⟨0x30#8, modByte syn, 0#16⟩
  | .sessRead => ⟨0x31#8, 0#8, 0#16⟩
  | .sessWrite stamp => ⟨0x32#8, modByte stamp, 0#16⟩
  | .sessFree => ⟨0x33#8, 0#8, 0#16⟩

/-- A command is well formed when its fields select a row (R85). -/
def Instr.wellFormed (i : Instr) : Bool := i.fields.problem == none

/-- The parameters are in the ranges R5 gives them. R5 gives TICK_BITS the value 32 and no range: a width from 1 to
the 32 bits of a register is DESIGN CHOICE (log entry 4). NSE_BASE is the platform's, any value (D4). -/
def Config.legal (c : Config) : Bool :=
  decide (1 ≤ c.sessEntries) && decide (c.sessEntries ≤ 254)
    && decide (c.sessTimeout < 2 ^ 32)
    && decide (1 ≤ c.arpEntries) && decide (c.arpEntries ≤ 255)
    && decide (c.wscale.toNat ≤ 14)
    && decide (11 ≤ c.bufBits) && decide (c.bufBits ≤ 24)
    && decide (1 ≤ c.tickBits) && decide (c.tickBits ≤ 32)

end Sys2Proof
end

