-- ==== Sys2Proof/Decode.lean ====
section
/-! DEFINITION. The decoder of command words (spec R80 to R90), total on all of them and refusing by name, and after
it the encoder. A command word is one 32-bit register value: it has no byte order (R66, R90; log entry 20). -/

namespace Sys2Proof

/-- The fields of a command word (R80). -/
def fieldsOf (w : Word) : CommandFields where
  opc := w.extractLsb' 0 8
  mod := w.extractLsb' 8 8
  rsv := w.extractLsb' 16 16

/-- The command that a listed OPC names, with MOD bit 0 (R82, R84). -/
def instrOf (opc : Byte) (m : Bool) : Option Instr :=
  match opc with
  | 0x00#8 => some .nop
  | 0x01#8 => some .csum
  | 0x02#8 => some (.csumFixup m)
  | 0x03#8 => some .csumPseudo
  | 0x10#8 => some .arpLookup
  | 0x11#8 => some .arpUpdate
  | 0x12#8 => some .arpRead
  | 0x20#8 => some .build
  | 0x21#8 => some .reply
  | 0x30#8 => some (.sessFind m)
  | 0x31#8 => some .sessRead
  | 0x32#8 => some (.sessWrite m)
  | 0x33#8 => some .sessFree
  | _ => none

/-- Decoding a command word (R85): the one command it selects, or why it selects none. -/
def decode (w : Word) : Except CommandProblem Instr :=
  match (fieldsOf w).problem with
  | some p => .error p
  | none =>
    match instrOf (fieldsOf w).opc ((fieldsOf w).mod.getLsbD 0) with
    | some i => .ok i
    | none => .error .unlistedOpc

/-- The word of a command (R84): RSV, MOD and OPC, RSV the most significant. -/
def encode (i : Instr) : Word := i.fields.rsv ++ i.fields.mod ++ i.fields.opc

/-- The match column of the opcode map (R84). -/
def rowMatch : Instr → Word
  | .nop => 0x00000000#32
  | .csum => 0x00000001#32
  | .csumFixup _ => 0x00000002#32
  | .csumPseudo => 0x00000003#32
  | .arpLookup => 0x00000010#32
  | .arpUpdate => 0x00000011#32
  | .arpRead => 0x00000012#32
  | .build => 0x00000020#32
  | .reply => 0x00000021#32
  | .sessFind _ => 0x00000030#32
  | .sessRead => 0x00000031#32
  | .sessWrite _ => 0x00000032#32
  | .sessFree => 0x00000033#32

/-- The mask column of the opcode map (R84): bit 8 is open where the command defines a MOD bit. -/
def rowMask : Instr → Word
  | .csumFixup _ => 0xFFFFFEFF#32
  | .sessFind _ => 0xFFFFFEFF#32
  | .sessWrite _ => 0xFFFFFEFF#32
  | .nop => 0xFFFFFFFF#32
  | .csum => 0xFFFFFFFF#32
  | .csumPseudo => 0xFFFFFFFF#32
  | .arpLookup => 0xFFFFFFFF#32
  | .arpUpdate => 0xFFFFFFFF#32
  | .arpRead => 0xFFFFFFFF#32
  | .build => 0xFFFFFFFF#32
  | .reply => 0xFFFFFFFF#32
  | .sessRead => 0xFFFFFFFF#32
  | .sessFree => 0xFFFFFFFF#32

/-- The MOD bit CMD[8] that a command's row leaves open, where it leaves one (R82). -/
def modBit : Instr → Option Bool
  | .csumFixup w => some w
  | .sessFind syn => some syn
  | .sessWrite stamp => some stamp
  | .nop => none
  | .csum => none
  | .csumPseudo => none
  | .arpLookup => none
  | .arpUpdate => none
  | .arpRead => none
  | .build => none
  | .reply => none
  | .sessRead => none
  | .sessFree => none

/-- What the decoder reads from an instruction of the opcode table whose bits are `w`. Every row has 32
bits (R90), and a bit above them is no part of a command word. -/
def decodeTableWord (nbits w : Nat) : Option Instr :=
  if nbits ≤ 32 ∧ w < 2 ^ 32 then (decode (BitVec.ofNat 32 w)).toOption else none

end Sys2Proof
end

