-- ==== Sys2Proof/Machine/OnesComplement.lean ====
section
/-! DEFINITION. Ones'-complement arithmetic (spec R8) and the big-endian byte strings of R63 and R64. -/

namespace Sys2Proof.Machine

open Sys2Proof

/-- `fold` of R8: end-around-carry reduction of a natural number to 16 bits. -/
def fold (n : Nat) : Nat := if n = 0 then 0 else (n - 1) % 0xFFFF + 1

/-- `ocadd` of R8: ones'-complement 16-bit addition. -/
def ocadd (a b : Half) : Half := BitVec.ofNat 16 (fold (a.toNat + b.toNat))

/-- `words` of R8: the 16-bit big-endian words of a byte string, a zero byte appended to an odd one. -/
def words : List Byte → List Half
  | [] => []
  | [b] => [b ++ 0#8]
  | b :: c :: bs => (b ++ c) :: words bs

/-- The sum of 16-bit words as a natural number. -/
def sumWords : List Half → Nat
  | [] => 0
  | w :: ws => w.toNat + sumWords ws

/-- `ocsum` of R8: the folded sum of an initial value and the words of a byte string. -/
def ocsum (init : Half) (bs : List Byte) : Half :=
  BitVec.ofNat 16 (fold (init.toNat + sumWords (words bs)))

/-- The checksum of a byte string: `~16 ocsum(0, B)` (R8). -/
def checksum (bs : List Byte) : Half := ~~~ocsum 0#16 bs

/-- The two bytes of a 16-bit value, most significant first (R64). -/
def be16 (v : Half) : List Byte := [v.extractLsb' 8 8, v.extractLsb' 0 8]

/-- The four bytes of a 32-bit value, most significant first (R64). -/
def be32 (v : Word) : List Byte :=
  [v.extractLsb' 24 8, v.extractLsb' 16 8, v.extractLsb' 8 8, v.extractLsb' 0 8]

/-- The six bytes of a link-layer address, most significant first (R33, R141). -/
def be48 (v : Mac) : List Byte :=
  [v.extractLsb' 40 8, v.extractLsb' 32 8, v.extractLsb' 24 8, v.extractLsb' 16 8,
    v.extractLsb' 8 8, v.extractLsb' 0 8]

/-- A byte string read as one big-endian number, the value of `MemRead` (R9, R63). -/
def beNat (bs : List Byte) : Nat := bs.foldl (fun n b => n * 256 + b.toNat) 0

/-- The twelve pseudo-header bytes (R107): addresses, a zero byte, the protocol, the transport length. -/
def pseudoHeader (src dst : Word) (proto : Byte) (len : Half) : List Byte :=
  be32 src ++ be32 dst ++ [0x00#8, proto] ++ be16 len

/-- The sum `S` of R107: pseudo-header, then transport bytes. -/
def pseudoSum (src dst : Word) (proto : Byte) (len : Half) (bs : List Byte) : Half :=
  ocsum 0#16 (pseudoHeader src dst proto len ++ bs)

/-- The natural number `x` of R104 for a changed field: the complemented old checksum, the complemented old
words and the new words. -/
def fixupSum (hc : Half) (olds news : List Half) : Nat :=
  (~~~hc).toNat + sumWords (olds.map (fun o => ~~~o)) + sumWords news

/-- The updated checksum of R104. -/
def fixup (hc : Half) (olds news : List Half) : Half :=
  ~~~BitVec.ofNat 16 (fold (fixupSum hc olds news))

end Sys2Proof.Machine
end

