-- ==== Sys2Proof/Machine/Ticks.lean ====
section
/-! DEFINITION. Tick arithmetic (spec R42, R45): the tick input has `TICK_BITS` bits, and ages are modulo
`2^TICK_BITS`, which is 2^32 for this hardware (R5, R6). -/

namespace Sys2Proof.Machine

open Sys2Proof

/-- The low `TICK_BITS` bits of a value: what a tick input of that width shows (R42, log entry 4). -/
def tickValue (c : Config) (t : Word) : Word := BitVec.ofNat 32 (t.toNat % 2 ^ c.tickBits)

/-- The age in ticks of a timestamp at a command's `now`, modulo `2^TICK_BITS` (R45, log entry 4). -/
def age (c : Config) (now t : Word) : Nat := (now - t).toNat % 2 ^ c.tickBits

end Sys2Proof.Machine
end

