-- ==== Sys2Proof/Machine/State.lean ====
section
/-! DEFINITION. The state of the NSE as plain data (spec R20 to R46), the events still to come, and reset. -/

namespace Sys2Proof.Machine

open Sys2Proof

/-- Why the machine stops with a fault. -/
inductive Fault where
  /-- A command read a BUF byte that nothing has written since power-up (R79, I6). Raised by CSUM,
  CSUM_PSEUDO, BUILD and REPLY. Safe: the spec asks for a fault, and hardware would go on with an
  unspecified byte (log entry 6). -/
  | unwrittenRead
  /-- The host read or wrote BUF while STATUS.BUSY = 1 (R256, I7). Raised by a host BUF access. Safe: the
  spec asks for a fault (log entry 8). -/
  | bufWhileBusy
  /-- The host named a BUF address of BUF_SIZE or more, which its port cannot carry (R61, R62). Raised by a
  host BUF access. Safe: no host access can be this one (log entry 10). -/
  | noSuchAddress
  deriving DecidableEq, Repr

/-- Why the model gives a step no meaning. -/
inductive Refusal where
  /-- The instruction has no meaning in this model. Raised by no arm of `exec`. Safe. -/
  | notModelled (mnemonic : String)
  /-- The host accessed REG other than as an aligned 32-bit word inside its 256 bytes (R67, I8). Raised by a
  host register access. Safe: the spec asks for a refusal (log entry 9). -/
  | badRegAccess
  deriving DecidableEq, Repr

/-- The error codes of STATUS.ERR (R222). A closed type: codes 9..15 are never produced (I15, log entry
15). -/
inductive ErrCode where
  /-- 0: no error. -/
  | ok
  /-- 1: the command word selects no row of the opcode map. -/
  | illegalCmd
  /-- 2: a selector names no SCB, or an ARP index names no entry. -/
  | badIndex
  /-- 3: an SCB field index names no field, or names LIVE in a write. -/
  | badField
  /-- 4: a BUF range leaves the buffer, or a length does not fit its 16-bit field. -/
  | badRange
  /-- 5: SCB.PROTO is not 1, 6 or 17. -/
  | badProto
  /-- 6: the inbound frame is not an IPv4 TCP frame long enough for its headers. -/
  | badPacket
  /-- 7: the frame does not fit the output capacity. -/
  | allocFail
  /-- 8: a SYN found no live match and no free slot. -/
  | tableFull
  deriving DecidableEq, Repr

/-- A session control block (R33): the 26 stored fields. LIVE (index 0x1A) is computed (R36). -/
structure Scb where
  /-- 0x00 VALID. -/
  valid : Bool
  /-- 0x01 LIP, local IPv4 address. -/
  lip : Word
  /-- 0x02 RIP, remote IPv4 address. -/
  rip : Word
  /-- 0x03 LPORT. -/
  lport : Half
  /-- 0x04 RPORT. -/
  rport : Half
  /-- 0x05 SEQ, local next sequence number. -/
  seq : Word
  /-- 0x06 ACK, local next expected acknowledgment. -/
  ack : Word
  /-- 0x07 FLAGS, the outgoing TCP flag set (R38). -/
  flags : Byte
  /-- 0x08 RFLAGS, the last-observed peer flag set (R38). -/
  rflags : Byte
  /-- 0x09 WINDOW. -/
  window : Half
  /-- 0x0A MTU. -/
  mtu : Half
  /-- 0x0B TTL. -/
  ttl : Byte
  /-- 0x0C IPID, the IP-identifier counter. -/
  ipid : Half
  /-- 0x0D LAST_TICK, the last-activity tick. -/
  lastTick : Word
  /-- 0x0E PROTO: 1 ICMP, 6 TCP, 17 UDP. -/
  proto : Byte
  /-- 0x0F SOCK_OPEN, stored only. -/
  sockOpen : Bool
  /-- 0x10 TXPTR, address of the outgoing payload; 0 means no caller bytes. -/
  txptr : Word
  /-- 0x11 TXLEN. -/
  txlen : Half
  /-- 0x12 RXPTR, stored only. -/
  rxptr : Word
  /-- 0x13 RXLEN, stored only. -/
  rxlen : Half
  /-- 0x14 PEER_MSS; 0 means not known. -/
  peerMss : Half
  /-- 0x15 FRAG_OK. -/
  fragOk : Bool
  /-- 0x16 LMAC_HI. -/
  lmacHi : Half
  /-- 0x17 LMAC_LO. -/
  lmacLo : Word
  /-- 0x18 RMAC_HI. -/
  rmacHi : Half
  /-- 0x19 RMAC_LO. -/
  rmacLo : Word
  deriving DecidableEq, Repr

/-- The names of the stored SCB fields (R33), in index order. -/
inductive ScbField where
  | valid | lip | rip | lport | rport | seq | ack | flags | rflags | window | mtu | ttl | ipid
  | lastTick | proto | sockOpen | txptr | txlen | rxptr | rxlen | peerMss | fragOk
  | lmacHi | lmacLo | rmacHi | rmacLo
  deriving DecidableEq, Repr

/-- An SCB with every field 0 (R33, R252). -/
def Scb.zero : Scb where
  valid := false
  lip := 0
  rip := 0
  lport := 0
  rport := 0
  seq := 0
  ack := 0
  flags := 0
  rflags := 0
  window := 0
  mtu := 0
  ttl := 0
  ipid := 0
  lastTick := 0
  proto := 0
  sockOpen := false
  txptr := 0
  txlen := 0
  rxptr := 0
  rxlen := 0
  peerMss := 0
  fragOk := false
  lmacHi := 0
  lmacLo := 0
  rmacHi := 0
  rmacLo := 0

/-- An ARP cache entry (R40). -/
structure ArpEntry where
  valid : Bool
  ip : Word
  mac : Mac
  /-- The tick of the last ARP_UPDATE that wrote the entry. -/
  tick : Word
  deriving DecidableEq, Repr

/-- An ARP entry with every field 0 (R40, R252). -/
def ArpEntry.zero : ArpEntry := ⟨false, 0, 0, 0⟩

/-- One access of the host (R62, R67, R239). Register accesses carry the width in bytes and the offset, so
that the ones the spec leaves outside can be written down and refused. -/
inductive HostAccess where
  | regRead (width offset : Nat)
  | regWrite (width offset : Nat) (value : Word)
  | bufRead (addr : Nat)
  | bufWrite (addr : Nat) (value : Byte)
  deriving DecidableEq, Repr

/-- One event of the total order of R75 (log entry 1). -/
inductive Event where
  /-- The host makes an access. -/
  | host (a : HostAccess)
  /-- The engine takes its execution step, if it is enabled (R221). -/
  | engine
  /-- The tick input advances by +1 modulo `2^TICK_BITS` (R42, R259). -/
  | tick
  /-- The platform asserts the reset input (R250). -/
  | reset
  deriving DecidableEq, Repr

/-- The state of one NSE: the parameters, the architectural state of R20, the inputs, and the model's own
fields at the end. -/
structure State where
  /-- The parameters of the instance (R5); no step changes them (log entry 4). -/
  cfg : Config
  /-- CMD, the last accepted command word (R22). -/
  cmd : Word
  /-- STATUS.BUSY (R23). -/
  busy : Bool
  /-- STATUS.DONE (R23). -/
  done : Bool
  /-- STATUS.OVR (R23). -/
  ovr : Bool
  /-- STATUS.ERR (R23, R222), set to 0 when a command is accepted (R221). -/
  err : ErrCode
  /-- The code the previous command left, which the ERR field of STATUS shows while BUSY = 1 (R257, I12; log entry
  21). -/
  prevErr : ErrCode
  /-- CTRL.IE (R24). -/
  ie : Bool
  /-- HOST_IP (R29). -/
  hostIp : Word
  /-- HOST_MASK (R29). -/
  hostMask : Word
  /-- ARG0 .. ARG7 (R25). -/
  args : Vector Word 8
  /-- RES0 .. RES7 (R25). -/
  res : Vector Word 8
  /-- The inbound slots of the session table, in index order (R33). -/
  sess : List Scb
  /-- The outbound SCB (R39). -/
  oscb : Scb
  /-- The ARP cache, in index order (R40). -/
  arp : List ArpEntry
  /-- BUF (R61): the bytes written since power-up, addresses strictly rising. An address not listed has no
  value (R79, log entry 6). -/
  buf : List Host.Cell
  /-- `lat_cmd` (R44). -/
  latCmd : Word
  /-- `lat_arg[0..7]` (R44). -/
  latArgs : Vector Word 8
  /-- `lat_ip` (R44). -/
  latIp : Word
  /-- `lat_mask` (R44). -/
  latMask : Word
  /-- `now`, the tick sampled at acceptance (R44, R232). -/
  now : Word
  /-- `pending` (R44; log entry 14). -/
  pending : Bool
  /-- The tick input (R42), which TICK shows (R26). -/
  tick : Word
  /-- The values the ISN input still gives, in order (R43; log entry 7). -/
  isnInputs : List Word
  /-- The model's own: values taken from the opaque ISN source (log entry 7). -/
  isnDraws : Nat
  /-- The model's own: host reads of never-written bytes so far (log entry 6). -/
  freeReads : Nat
  /-- The model's own: what the last host read returned (log entry 11). -/
  hostData : Word
  /-- The model's own: the events still to come (log entry 1). -/
  agenda : List Event
  deriving DecidableEq, Repr

/-- The machine with given parameters right after power-on reset (R251 to R253): every register and latch
0, every table entry 0, nothing in BUF. -/
def State.resetWith (c : Config) : State where
  cfg := c
  cmd := 0
  busy := false
  done := false
  ovr := false
  err := .ok
  prevErr := .ok
  ie := false
  hostIp := 0
  hostMask := 0
  args := Vector.replicate 8 0
  res := Vector.replicate 8 0
  sess := List.replicate c.sessEntries Scb.zero
  oscb := Scb.zero
  arp := List.replicate c.arpEntries ArpEntry.zero
  buf := []
  latCmd := 0
  latArgs := Vector.replicate 8 0
  latIp := 0
  latMask := 0
  now := 0
  pending := false
  tick := tickValue c Config.tickAtPowerUp
  isnInputs := []
  isnDraws := 0
  freeReads := 0
  hostData := 0
  agenda := []

/-- This hardware right after power-on reset (R251, R252; log entry 13). -/
def State.reset : State := State.resetWith Config.thisHardware

end Sys2Proof.Machine
end

