-- ==== Sys2Proof/Machine/Ops.lean ====
section
/-! DEFINITION. The named operations over BUF, the tables and the registers, the acceptance and the completion of a
command (spec R221, the NSE's form of taking an exception: R220, R224), and reset (R250 to R254). -/

namespace Sys2Proof.Machine

open Sys2Proof

/-- What a step or a command answers. -/
abbrev Answer := Host.Outcome State Fault Refusal

/-! ### BUF (R61 to R69) -/

/-- The byte at an address, if anything has written it since power-up (R79). -/
def Memory.read : List Host.Cell → Nat → Option Byte
  | [], _ => none
  | (k, b) :: m, a => if k = a then some b else Memory.read m a

/-- Store one byte, keeping the addresses strictly rising (R62, R63). -/
def Memory.write : List Host.Cell → Nat → Byte → List Host.Cell
  | [], a, b => [(a, b)]
  | (k, c) :: m, a, b =>
    if a < k then (a, b) :: (k, c) :: m
    else if a = k then (a, b) :: m
    else (k, c) :: Memory.write m a b

/-- `MemBytes(a, n)` of R63; none when one of the bytes was never written (R79). -/
def Memory.readBytes (m : List Host.Cell) (a : Nat) : Nat → Option (List Byte)
  | 0 => some []
  | n + 1 =>
    match Memory.read m a, Memory.readBytes m (a + 1) n with
    | some b, some bs => some (b :: bs)
    | _, _ => none

/-- Store a byte string at increasing addresses (R63: `MemWrite` of the number it spells). -/
def Memory.writeBytes (m : List Host.Cell) (a : Nat) : List Byte → List Host.Cell
  | [] => m
  | b :: bs => Memory.writeBytes (Memory.write m a b) (a + 1) bs

/-- `MemRead(a, n)` of R63: the bytes as one big-endian number. -/
def Memory.readNat (m : List Host.Cell) (a n : Nat) : Option Nat :=
  (Memory.readBytes m a n).map beNat

/-- The addresses of a memory rise strictly: its one canonical form. -/
def Memory.sorted : List Host.Cell → Bool
  | [] => true
  | (k, _) :: m => m.all (fun c => decide (k < c.1)) && Memory.sorted m

/-- A memory of `size` bytes is in canonical form and lists no address outside it (R61). -/
def Memory.wf (size : Nat) (m : List Host.Cell) : Bool :=
  Memory.sorted m && m.all (fun c => decide (c.1 < size))

/-- The range check of R68, on unbounded naturals. -/
def rangeOk (c : Config) (a n : Nat) : Bool := decide (a + n ≤ c.bufSize)

/-! ### Ticks and tables (R33 to R41, R45) -/

/-- The smallest index at which a predicate holds (R9, R192). -/
def lowest {α : Type} (p : α → Bool) (l : List α) : Option Nat := l.findIdx? p

/-- The SCB a selector names (R34); none where it names none. -/
def State.scb? (s : State) (sel : Byte) : Option Scb :=
  if sel = 0xFF#8 then some s.oscb else s.sess[sel.toNat]?

/-- Replace the SCB a selector names (R34). -/
def State.setScb (s : State) (sel : Byte) (b : Scb) : State :=
  if sel = 0xFF#8 then { s with oscb := b } else { s with sess := s.sess.set sel.toNat b }

/-- Replace an inbound slot. -/
def State.setSlot (s : State) (j : Nat) (b : Scb) : State := { s with sess := s.sess.set j b }

/-- Replace an ARP entry. -/
def State.setArp (s : State) (i : Nat) (e : ArpEntry) : State := { s with arp := s.arp.set i e }

/-- `live(j)` of R181: valid, and not older than SESS_TIMEOUT. -/
def Scb.live (c : Config) (now : Word) (b : Scb) : Bool :=
  b.valid && decide (age c now b.lastTick ≤ c.sessTimeout)

/-- Freshness of an ARP entry (R121). -/
def ArpEntry.fresh (c : Config) (now : Word) (e : ArpEntry) : Bool :=
  e.valid && decide (age c now e.tick ≤ c.arpFresh)

/-! ### Result registers (R25, R88) -/

/-- `RES[i] <- v` (R9). -/
def State.setRes (s : State) (i : Fin 8) (v : Word) : State := { s with res := s.res.set i v }

/-- A truth value as a register value. -/
def bit (b : Bool) : Word := if b then 1#32 else 0#32

/-- The register value that stands for "none": 0xFFFFFFFF (R122, R124, R183). -/
def noIndex : Word := 0xFFFFFFFF#32

/-! ### The life of a command (R221) -/

/-- Acceptance of a command word (R221): CMD and the latches are written, the tick is sampled, BUSY is set,
DONE and ERR are cleared, OVR stays. The code ERR held is kept for the host's reads of STATUS while BUSY = 1 (R257,
I12). That the two rules are taken together so is DESIGN CHOICE (log entry 21). -/
def State.accept (s : State) (w : Word) : State :=
  { s with
    cmd := w, latCmd := w, latArgs := s.args, latIp := s.hostIp, latMask := s.hostMask, now := s.tick,
    busy := true, done := false, err := .ok, prevErr := s.err, pending := true }

/-- Completion with an error code (R221, R227): STATUS.ERR, BUSY, DONE and `pending`, nothing else. -/
def State.complete (s : State) (code : ErrCode) : State :=
  { s with err := code, busy := false, done := true, pending := false }

/-- The command ends without error. -/
def succeed (s : State) : Answer := .next (s.complete .ok)

/-- `raise Error(code)` (R9, R224): the command ends with a code and no state but STATUS changes. -/
def raise (code : ErrCode) (s : State) : Answer := .next (s.complete code)

/-- Go on with the bytes of a range, or fault on a byte never written (R79). -/
def withBytes (s : State) (a n : Nat) (k : List Byte → Answer) : Answer :=
  match Memory.readBytes s.buf a n with
  | some bs => k bs
  | none => .fault .unwrittenRead

/-! ### Initial sequence numbers (R43, R186) -/

/-- The value the ISN input gives to the next draw: the next listed one, else a free one (log entry 7). -/
def State.isn (s : State) : Word :=
  match s.isnInputs with
  | v :: _ => v
  | [] => Config.freeIsn s.isnDraws

/-- The state after one value is taken from the ISN input. -/
def State.takeIsn (s : State) : State :=
  match s.isnInputs with
  | _ :: rest => { s with isnInputs := rest }
  | [] => { s with isnDraws := s.isnDraws + 1 }

/-! ### Reset (R250 to R254) -/

/-- Reset by either source (R250): every register, latch and table entry 0, a command in progress abandoned
(R254). BUF and the inputs are kept (R253), and so are the model's own fields (log entry 13). -/
def State.resetNse (s : State) : State :=
  { State.resetWith s.cfg with
    buf := s.buf, tick := s.tick, isnInputs := s.isnInputs, isnDraws := s.isnDraws,
    freeReads := s.freeReads, hostData := s.hostData, agenda := s.agenda }

end Sys2Proof.Machine
end

