-- ==== Sys2Proof/Machine/Operands.lean ====
section
/-! DEFINITION. Operand assembly from the latched arguments (spec R86, R87) and the SCB fields by index (R33,
R35). -/

namespace Sys2Proof.Machine

open Sys2Proof

/-- `ARG[i]` of the command in progress: the value latched at acceptance (R86). -/
def State.arg (s : State) (i : Fin 8) : Word := s.latArgs[i]

/-- An argument used whole as an address or a length (R7: unsigned). -/
def State.argNat (s : State) (i : Fin 8) : Nat := (s.arg i).toNat

/-- `ARG[i][7:0]`: a selector, a field index, an entry index or a protocol. -/
def State.argByte (s : State) (i : Fin 8) : Byte := (s.arg i).extractLsb' 0 8

/-- `ARG[i][15:0]`. -/
def State.argLow (s : State) (i : Fin 8) : Half := (s.arg i).extractLsb' 0 16

/-- `ARG[i][31:16]`. -/
def State.argHigh (s : State) (i : Fin 8) : Half := (s.arg i).extractLsb' 16 16

/-- ARP_UPDATE's MAC, `ARG1[15:0] ++ ARG2[31:0]`. -/
def State.argMac (s : State) : Mac := s.argLow 1 ++ s.arg 2

/-- CSUM_FIXUP's field words in an argument: one word, or two, the high one first (R104). -/
def State.argWords (s : State) (w : Bool) (i : Fin 8) : List Half :=
  if w then [s.argHigh i, s.argLow i] else [s.argLow i]

/-- The stored field that an index names (R33); none for LIVE (0x1A) and for indices that name no field. -/
def ScbField.ofIndex (f : Byte) : Option ScbField :=
  match f with
  | 0x00#8 => some .valid
  | 0x01#8 => some .lip
  | 0x02#8 => some .rip
  | 0x03#8 => some .lport
  | 0x04#8 => some .rport
  | 0x05#8 => some .seq
  | 0x06#8 => some .ack
  | 0x07#8 => some .flags
  | 0x08#8 => some .rflags
  | 0x09#8 => some .window
  | 0x0A#8 => some .mtu
  | 0x0B#8 => some .ttl
  | 0x0C#8 => some .ipid
  | 0x0D#8 => some .lastTick
  | 0x0E#8 => some .proto
  | 0x0F#8 => some .sockOpen
  | 0x10#8 => some .txptr
  | 0x11#8 => some .txlen
  | 0x12#8 => some .rxptr
  | 0x13#8 => some .rxlen
  | 0x14#8 => some .peerMss
  | 0x15#8 => some .fragOk
  | 0x16#8 => some .lmacHi
  | 0x17#8 => some .lmacLo
  | 0x18#8 => some .rmacHi
  | 0x19#8 => some .rmacLo
  | _ => none

/-- The index of the LIVE pseudo-field (R33, R36). -/
def liveIndex : Byte := 0x1A#8

/-- The width of a field (R33). -/
def ScbField.width : ScbField → Nat
  | .valid => 1
  | .lip => 32
  | .rip => 32
  | .lport => 16
  | .rport => 16
  | .seq => 32
  | .ack => 32
  | .flags => 8
  | .rflags => 8
  | .window => 16
  | .mtu => 16
  | .ttl => 8
  | .ipid => 16
  | .lastTick => 32
  | .proto => 8
  | .sockOpen => 1
  | .txptr => 32
  | .txlen => 16
  | .rxptr => 32
  | .rxlen => 16
  | .peerMss => 16
  | .fragOk => 1
  | .lmacHi => 16
  | .lmacLo => 32
  | .rmacHi => 16
  | .rmacLo => 32

/-- The value of a field, zero-extended to 32 bits (R35). -/
def Scb.get (b : Scb) : ScbField → Word
  | .valid => bit b.valid
  | .lip => b.lip
  | .rip => b.rip
  | .lport => b.lport.setWidth 32
  | .rport => b.rport.setWidth 32
  | .seq => b.seq
  | .ack => b.ack
  | .flags => b.flags.setWidth 32
  | .rflags => b.rflags.setWidth 32
  | .window => b.window.setWidth 32
  | .mtu => b.mtu.setWidth 32
  | .ttl => b.ttl.setWidth 32
  | .ipid => b.ipid.setWidth 32
  | .lastTick => b.lastTick
  | .proto => b.proto.setWidth 32
  | .sockOpen => bit b.sockOpen
  | .txptr => b.txptr
  | .txlen => b.txlen.setWidth 32
  | .rxptr => b.rxptr
  | .rxlen => b.rxlen.setWidth 32
  | .peerMss => b.peerMss.setWidth 32
  | .fragOk => bit b.fragOk
  | .lmacHi => b.lmacHi.setWidth 32
  | .lmacLo => b.lmacLo
  | .rmacHi => b.rmacHi.setWidth 32
  | .rmacLo => b.rmacLo

/-- Write a field: it receives the low bits of the value, as many as it is wide (R35). -/
def Scb.put (b : Scb) (f : ScbField) (v : Word) : Scb :=
  match f with
  | .valid => { b with valid := v.getLsbD 0 }
  | .lip => { b with lip := v }
  | .rip => { b with rip := v }
  | .lport => { b with lport := v.setWidth 16 }
  | .rport => { b with rport := v.setWidth 16 }
  | .seq => { b with seq := v }
  | .ack => { b with ack := v }
  | .flags => { b with flags := v.setWidth 8 }
  | .rflags => { b with rflags := v.setWidth 8 }
  | .window => { b with window := v.setWidth 16 }
  | .mtu => { b with mtu := v.setWidth 16 }
  | .ttl => { b with ttl := v.setWidth 8 }
  | .ipid => { b with ipid := v.setWidth 16 }
  | .lastTick => { b with lastTick := v }
  | .proto => { b with proto := v.setWidth 8 }
  | .sockOpen => { b with sockOpen := v.getLsbD 0 }
  | .txptr => { b with txptr := v }
  | .txlen => { b with txlen := v.setWidth 16 }
  | .rxptr => { b with rxptr := v }
  | .rxlen => { b with rxlen := v.setWidth 16 }
  | .peerMss => { b with peerMss := v.setWidth 16 }
  | .fragOk => { b with fragOk := v.getLsbD 0 }
  | .lmacHi => { b with lmacHi := v.setWidth 16 }
  | .lmacLo => { b with lmacLo := v }
  | .rmacHi => { b with rmacHi := v.setWidth 16 }
  | .rmacLo => { b with rmacLo := v }

end Sys2Proof.Machine
end

