-- ==== Sys2Proof/Machine/Arp.lean ====
section
/-! DEFINITION. The ARP cache: ARP_LOOKUP, ARP_UPDATE, ARP_READ (spec R120 to R127). -/

namespace Sys2Proof.Machine

open Sys2Proof

/-- Entry `i` of the cache. -/
def State.arpAt (s : State) (i : Nat) : ArpEntry := s.arp.getD i ArpEntry.zero

/-- Bits 47:32 of a link-layer address as a register value (R122, R125). -/
def macHigh (m : Mac) : Word := (m.extractLsb' 32 16).setWidth 32

/-- Bits 31:0 of a link-layer address (R122, R125). -/
def macLow (m : Mac) : Word := m.extractLsb' 0 32

/-- The entry ARP_LOOKUP answers with: the lowest valid fresh one of the address (R122). -/
def State.arpHit (s : State) (ip : Word) : Option Nat :=
  lowest (fun e => (e.valid && e.ip == ip) && e.fresh s.cfg s.now) s.arp

/-- The results of ARP_LOOKUP (R122). -/
def State.setLookup (s : State) : Option Nat → State
  | none => (((s.setRes 0 0#32).setRes 1 0#32).setRes 2 0#32).setRes 3 noIndex
  | some i =>
    (((s.setRes 0 1#32).setRes 1 (macHigh (s.arpAt i).mac)).setRes 2 (macLow (s.arpAt i).mac)).setRes 3
      (BitVec.ofNat 32 i)

/-- ARP_LOOKUP (R122): it changes no entry, and a miss is a result. -/
def execArpLookup (s : State) : Answer := succeed (s.setLookup (s.arpHit (s.arg 0)))

/-- The subnet check of R123, with the values sampled at acceptance. -/
def State.onSubnet (s : State) (ip : Word) : Bool := (ip &&& s.latMask) == (s.latIp &&& s.latMask)

/-- The entry ARP_UPDATE writes and its outcome code, in the order of R124: the same address (0 UPDATED), an
empty entry (1 INSERTED), a stale entry (2 REPLACED); none where every entry is valid and fresh. -/
def State.arpTarget (s : State) (ip : Word) : Option (Nat × Word) :=
  match lowest (fun e => e.valid && e.ip == ip) s.arp with
  | some i => some (i, 0#32)
  | none =>
    match lowest (fun e => !e.valid) s.arp with
    | some i => some (i, 1#32)
    | none =>
      match lowest (fun e => !e.fresh s.cfg s.now) s.arp with
      | some i => some (i, 2#32)
      | none => none

/-- What ARP_UPDATE does to the state (R124). -/
def State.arpUpsert (s : State) (ip : Word) (mac : Mac) : State :=
  if s.onSubnet ip then
    match s.arpTarget ip with
    | some (i, code) =>
      ((s.setArp i ⟨true, ip, mac, s.now⟩).setRes 0 code).setRes 1 (BitVec.ofNat 32 i)
    | none => (s.setRes 0 4#32).setRes 1 noIndex
  else (s.setRes 0 3#32).setRes 1 noIndex

/-- ARP_UPDATE (R124): an ignored update is a result. -/
def execArpUpdate (s : State) : Answer := succeed (s.arpUpsert (s.arg 0) s.argMac)

/-- The six results of ARP_READ (R125). -/
def State.setEntry (s : State) (e : ArpEntry) : State :=
  (((((s.setRes 0 (bit e.valid)).setRes 1 e.ip).setRes 2 (macHigh e.mac)).setRes 3 (macLow e.mac)).setRes 4
    e.tick).setRes 5 (bit (e.fresh s.cfg s.now))

/-- ARP_READ (R125). -/
def execArpRead (s : State) : Answer :=
  match s.arp[(s.argByte 0).toNat]? with
  | some e => succeed (s.setEntry e)
  | none => raise .badIndex s

end Sys2Proof.Machine
end

