-- ==== Sys2Proof/Machine/Flags.lean ====
section
/-! DEFINITION. The status word and its bits (spec R22 to R24, R46), the interrupt line (R228), the TCP flag bits
(R38), and the two flags the packet builder computes (R142, R158). -/

namespace Sys2Proof.Machine

open Sys2Proof

/-- The 4-bit code of an error (R222). -/
def ErrCode.code : ErrCode → BitVec 4
  | .ok => 0#4
  | .illegalCmd => 1#4
  | .badIndex => 2#4
  | .badField => 3#4
  | .badRange => 4#4
  | .badProto => 5#4
  | .badPacket => 6#4
  | .allocFail => 7#4
  | .tableFull => 8#4

/-- The ERR field as the host reads it: the register (R23), and while BUSY = 1 the code the previous command left
(R257, I12; log entry 21). -/
def State.shownErr (s : State) : ErrCode := if s.busy then s.prevErr else s.err

/-- STATUS as the host reads it (R23, R257): ERR in 11:8, OVR in 2, DONE in 1, BUSY in 0, every other bit 0. -/
def State.statusWord (s : State) : Word :=
  0#20 ++ s.shownErr.code ++ 0#5 ++ BitVec.ofBool s.ovr ++ BitVec.ofBool s.done ++ BitVec.ofBool s.busy

/-- A host write to STATUS (R23): a 1 in bit 1 clears DONE, a 1 in bit 2 clears OVR, nothing else changes. -/
def State.writeStatus (s : State) (v : Word) : State :=
  { s with done := s.done && !v.getLsbD 1, ovr := s.ovr && !v.getLsbD 2 }

/-- CTRL as the host reads it (R24): IE in bit 0, SRST and the reserved bits 0. -/
def State.ctrlWord (s : State) : Word := bit s.ie

/-- The interrupt output (R228): a level, `IE and DONE`. -/
def State.irq (s : State) : Bool := s.ie && s.done

/-- SYN in a TCP flag set: bit 1 (R38, R146). -/
def isSyn (flags : Byte) : Bool := flags.getLsbD 1

/-- The flags and fragment-offset word of the IPv4 header (R142): DF unless fragmentation is allowed. -/
def fragmentWord (fragOk : Bool) : Half := if fragOk then 0x0000#16 else 0x4000#16

/-- FRAG_NEEDED (R158): an MTU is configured and the total length exceeds it, whatever DF is. -/
def fragNeeded (mtu : Half) (totalLen : Nat) : Bool := mtu != 0#16 && decide (mtu.toNat < totalLen)

end Sys2Proof.Machine
end

