-- ==== Sys2Proof/Machine/Frame.lean ====
section
/-! DEFINITION. The frame the packet builder writes (spec R140 to R153): Ethernet, IPv4, then ICMP echo, UDP or TCP
with its options, then the payload. Every multi-byte field is big-endian (R64). -/

namespace Sys2Proof.Machine

open Sys2Proof

/-- The transport protocols the builder knows (R154, D37). -/
inductive Proto where
  | icmp
  | udp
  | tcp
  deriving DecidableEq, Repr

/-- The protocol number in SCB.PROTO and in the IPv4 header (R33, R142). -/
def Proto.number : Proto → Byte
  | .icmp => 1#8
  | .udp => 17#8
  | .tcp => 6#8

/-- The protocol a number names; none for every other number (R154). -/
def Proto.ofNumber (n : Byte) : Option Proto :=
  match n with
  | 1#8 => some .icmp
  | 17#8 => some .udp
  | 6#8 => some .tcp
  | _ => none

/-- The addresses and ports of a frame: the SCB's for BUILD (R154), the inbound frame's, swapped, for REPLY
(R155). -/
structure Ends where
  dmac : Mac
  smac : Mac
  sip : Word
  dip : Word
  sport : Half
  dport : Half
  deriving DecidableEq, Repr

/-- BUILD's addresses and ports (R154). -/
def Scb.ends (b : Scb) : Ends where
  dmac := b.rmacHi ++ b.rmacLo
  smac := b.lmacHi ++ b.lmacLo
  sip := b.lip
  dip := b.rip
  sport := b.lport
  dport := b.rport

/-! ### Lengths (R149, R150) -/

/-- The payload length `P`: TXLEN, clamped to PEER_MSS for TCP where it is known (R149). -/
def payloadLen (p : Proto) (b : Scb) : Nat :=
  if p = .tcp ∧ b.peerMss ≠ 0#16 ∧ b.peerMss.toNat < b.txlen.toNat then b.peerMss.toNat
  else b.txlen.toNat

/-- The option length `O`: 20 on a SYN, 12 on every other TCP segment (R147, R148). -/
def optionLen (b : Scb) : Nat := if isSyn b.flags then 20 else 12

/-- The transport header length `H` (R150). -/
def headerLen (p : Proto) (b : Scb) : Nat :=
  match p with
  | .icmp => 8
  | .udp => 8
  | .tcp => 20 + optionLen b

/-- The IPv4 total length `TL` (R150). -/
def totalLen (p : Proto) (b : Scb) : Nat := 20 + headerLen p b + payloadLen p b

/-- The frame length `L` (R150). -/
def frameLen (p : Proto) (b : Scb) : Nat := 14 + totalLen p b

/-- The filler pattern: byte `k` is `k mod 256` (R149). -/
def filler (n : Nat) : List Byte := (List.range n).map (fun k => BitVec.ofNat 8 k)

/-! ### Headers -/

/-- The Ethernet header (R141). -/
def ethHeader (e : Ends) : List Byte := be48 e.dmac ++ be48 e.smac ++ be16 0x0800#16

/-- The IPv4 header with a given checksum field (R142). -/
def ipHeader (p : Proto) (b : Scb) (e : Ends) (ck : Half) : List Byte :=
  [0x45#8, 0x00#8] ++ be16 (BitVec.ofNat 16 (totalLen p b)) ++ be16 b.ipid ++ be16 (fragmentWord b.fragOk)
    ++ [b.ttl, p.number] ++ be16 ck ++ be32 e.sip ++ be32 e.dip

/-- The ICMP echo-request header (R143). -/
def icmpHeader (b : Scb) (ck : Half) : List Byte :=
  [8#8, 0#8] ++ be16 ck ++ be16 b.lport ++ be16 (b.seq.extractLsb' 0 16)

/-- The UDP header (R144). -/
def udpHeader (b : Scb) (e : Ends) (ck : Half) : List Byte :=
  be16 e.sport ++ be16 e.dport ++ be16 (BitVec.ofNat 16 (8 + payloadLen .udp b)) ++ be16 ck

/-- The timestamp option with its alignment: TSval is the command's tick, TSecr is 0 (R148). -/
def timestampOption (now : Word) : List Byte :=
  [0x01#8, 0x01#8, 0x08#8, 0x0A#8] ++ be32 now ++ be32 0#32

/-- The TCP options (R147 on a SYN, R148 otherwise). -/
def tcpOptions (c : Config) (now : Word) (b : Scb) : List Byte :=
  if isSyn b.flags then
    [0x02#8, 0x04#8] ++ be16 c.mssValue ++ timestampOption now ++ [0x01#8, 0x03#8, 0x03#8, c.wscale]
  else timestampOption now

/-- The data-offset byte: the header length in 32-bit words, in bits 7:4 (R145). -/
def dataOffset (b : Scb) : Byte := BitVec.ofNat 8 ((20 + optionLen b) / 4) <<< 4

/-- The TCP header with its options (R145, R146). -/
def tcpHeader (c : Config) (now : Word) (b : Scb) (e : Ends) (ck : Half) : List Byte :=
  be16 e.sport ++ be16 e.dport ++ be32 b.seq ++ be32 b.ack ++ [dataOffset b, b.flags] ++ be16 b.window
    ++ be16 ck ++ be16 0#16 ++ tcpOptions c now b

/-- The transport header with a given checksum field (R143 to R145). -/
def transportHeader (c : Config) (now : Word) (p : Proto) (b : Scb) (e : Ends) (ck : Half) : List Byte :=
  match p with
  | .icmp => icmpHeader b ck
  | .udp => udpHeader b e ck
  | .tcp => tcpHeader c now b e ck

/-! ### Checksums -/

/-- The IPv4 header checksum (R152). -/
def ipChecksum (p : Proto) (b : Scb) (e : Ends) : Half := checksum (ipHeader p b e 0#16)

/-- The sum over pseudo-header and transport bytes, with the checksum field 0 (R153). -/
def transportSum (c : Config) (now : Word) (p : Proto) (b : Scb) (e : Ends) (payload : List Byte) : Half :=
  pseudoSum e.sip e.dip p.number (BitVec.ofNat 16 (headerLen p b + payloadLen p b))
    (transportHeader c now p b e 0#16 ++ payload)

/-- The transport checksum (R153): over the message alone for ICMP, with the pseudo-header for TCP and UDP,
and for UDP 0xFFFF in place of a computed 0 where UDP_ZERO_SUBST says so. -/
def transportChecksum (c : Config) (now : Word) (p : Proto) (b : Scb) (e : Ends) (payload : List Byte) : Half :=
  match p with
  | .icmp => checksum (transportHeader c now .icmp b e 0#16 ++ payload)
  | .tcp => ~~~transportSum c now .tcp b e payload
  | .udp =>
    if c.udpZeroSubst && (~~~transportSum c now .udp b e payload == 0#16) then 0xFFFF#16
    else ~~~transportSum c now .udp b e payload

/-- The whole frame (R140). -/
def frameBytes (c : Config) (now : Word) (p : Proto) (b : Scb) (e : Ends) (payload : List Byte) : List Byte :=
  ethHeader e ++ ipHeader p b e (ipChecksum p b e)
    ++ transportHeader c now p b e (transportChecksum c now p b e payload) ++ payload

end Sys2Proof.Machine
end

