-- ==== Sys2Proof/Machine/Builder.lean ====
section
/-! DEFINITION. The packet builder's commands BUILD and REPLY (spec R154 to R160). -/

namespace Sys2Proof.Machine

open Sys2Proof

/-- The range checks that BUILD and REPLY share (R159, step 4): the output region, the caller's payload, the
16-bit total length. -/
def builderRangesOk (c : Config) (p : Proto) (b : Scb) (o cap : Nat) : Bool :=
  rangeOk c o cap
    && (b.txptr == 0#32 || rangeOk c b.txptr.toNat (payloadLen p b))
    && decide (totalLen p b ≤ 0xFFFF)

/-- The payload bytes (R149): the caller's where TXPTR is not 0, else the filler; none when a byte of the
caller's was never written (R79). -/
def payloadBytes (m : List Host.Cell) (p : Proto) (b : Scb) : Option (List Byte) :=
  if b.txptr = 0#32 then some (filler (payloadLen p b))
  else Memory.readBytes m b.txptr.toNat (payloadLen p b)

/-- What BUILD and REPLY write on success (R154): the frame at `o`, IPID plus 1 (R156), and RES0 to RES3 (R158).
-/
def State.emit (s : State) (sel : Byte) (p : Proto) (b : Scb) (o : Nat) (frame : List Byte) : State :=
  let t := { s with buf := Memory.writeBytes s.buf o frame }
  let t := t.setScb sel { b with ipid := b.ipid + 1#16 }
  (((t.setRes 0 (BitVec.ofNat 32 (frameLen p b))).setRes 1 (BitVec.ofNat 32 (totalLen p b))).setRes 2
    (b.mtu.setWidth 32)).setRes 3 (bit (fragNeeded b.mtu (totalLen p b)))

/-- The end of BUILD and REPLY: the payload is read, then the frame is written (R69, R154). -/
def buildFrame (s : State) (sel : Byte) (p : Proto) (b : Scb) (e : Ends) (o : Nat) : Answer :=
  match payloadBytes s.buf p b with
  | some payload => succeed (s.emit sel p b o (frameBytes s.cfg s.now p b e payload))
  | none => .fault .unwrittenRead

/-- BUILD (R154), its checks in the order of R159. -/
def execBuild (s : State) : Answer :=
  match s.scb? (s.argByte 0) with
  | none => raise .badIndex s
  | some b =>
    match Proto.ofNumber b.proto with
    | none => raise .badProto s
    | some p =>
      if builderRangesOk s.cfg p b (s.argNat 1) (s.argNat 2) then
        if s.argNat 2 < frameLen p b then raise .allocFail s
        else buildFrame s (s.argByte 0) p b b.ends (s.argNat 1)
      else raise .badRange s

/-- What REPLY finds in an inbound frame. -/
inductive Inbound where
  /-- A byte the check needs was never written (R79). -/
  | unwritten
  /-- Not an IPv4 TCP frame long enough for its headers (R155). -/
  | bad
  /-- An IPv4 TCP frame whose header has `ihl` words. -/
  | good (ihl : Nat)
  deriving DecidableEq, Repr

/-- The IPv4 part of the inbound checks of R155, on the version and header-length byte. -/
def inboundIp (m : List Host.Cell) (i ilen vh : Nat) : Inbound :=
  if vh / 16 ≠ 4 ∨ vh % 16 < 5 ∨ ilen < 14 + 4 * (vh % 16) + 20 then .bad
  else
    match Memory.readNat m (i + 23) 1 with
    | none => .unwritten
    | some proto => if proto = 6 then .good (vh % 16) else .bad

/-- The inbound checks of R155, from left to right: a check that fails decides the answer and no later byte is
read (log entry 12). -/
def inboundCheck (m : List Host.Cell) (i ilen : Nat) : Inbound :=
  if ilen < 34 then .bad
  else
    match Memory.readNat m (i + 12) 2 with
    | none => .unwritten
    | some ethertype =>
      if ethertype = 0x0800 then
        match Memory.readNat m (i + 14) 1 with
        | none => .unwritten
        | some vh => inboundIp m i ilen vh
      else .bad

/-- The inbound frame's addresses and ports, swapped (R155); none when one of those bytes was never written.
-/
def replyEnds (m : List Host.Cell) (i ihl : Nat) : Option Ends :=
  match Memory.readNat m (i + 6) 6, Memory.readNat m i 6, Memory.readNat m (i + 30) 4,
    Memory.readNat m (i + 26) 4, Memory.readNat m (i + 14 + 4 * ihl + 2) 2,
    Memory.readNat m (i + 14 + 4 * ihl) 2 with
  | some dmac, some smac, some sip, some dip, some sport, some dport =>
    some ⟨BitVec.ofNat 48 dmac, BitVec.ofNat 48 smac, BitVec.ofNat 32 sip, BitVec.ofNat 32 dip,
      BitVec.ofNat 16 sport, BitVec.ofNat 16 dport⟩
  | _, _, _, _, _, _ => none

/-- REPLY (R155), its checks in the order of R159. The segment is TCP whatever SCB.PROTO holds. -/
def execReply (s : State) : Answer :=
  match s.scb? (s.argByte 0) with
  | none => raise .badIndex s
  | some b =>
    if rangeOk s.cfg (s.argNat 1) (s.argNat 2) && builderRangesOk s.cfg .tcp b (s.argNat 3) (s.argNat 4) then
      match inboundCheck s.buf (s.argNat 1) (s.argNat 2) with
      | .unwritten => .fault .unwrittenRead
      | .bad => raise .badPacket s
      | .good ihl =>
        if s.argNat 4 < frameLen .tcp b then raise .allocFail s
        else
          match replyEnds s.buf (s.argNat 1) ihl with
          | none => .fault .unwrittenRead
          | some e => buildFrame s (s.argByte 0) .tcp b e (s.argNat 3)
    else raise .badRange s

end Sys2Proof.Machine
end

