-- ==== Sys2Proof/Machine/Checksum.lean ====
section
/-! DEFINITION. The checksum unit: CSUM, CSUM_FIXUP, CSUM_PSEUDO (spec R100 to R108). -/

namespace Sys2Proof.Machine

open Sys2Proof

/-- RES0 and RES1 of CSUM and CSUM_PSEUDO: the checksum and the uncomplemented sum (R101, R107). -/
def State.setSums (s : State) (sum : Half) : State :=
  (s.setRes 0 ((~~~sum).setWidth 32)).setRes 1 (sum.setWidth 32)

/-- CSUM (R101). -/
def execCsum (s : State) : Answer :=
  if rangeOk s.cfg (s.argNat 0) (s.argNat 1) then
    withBytes s (s.argNat 0) (s.argNat 1) fun bs => succeed (s.setSums (ocsum (s.argLow 2) bs))
  else raise .badRange s

/-- CSUM_FIXUP (R104): it reads no byte of BUF. -/
def execCsumFixup (w : Bool) (s : State) : Answer :=
  succeed (s.setRes 0 ((fixup (s.argLow 0) (s.argWords w 1) (s.argWords w 2)).setWidth 32))

/-- CSUM_PSEUDO (R107). -/
def execCsumPseudo (s : State) : Answer :=
  if 0xFFFF < s.argNat 4 then raise .badRange s
  else if rangeOk s.cfg (s.argNat 3) (s.argNat 4) then
    withBytes s (s.argNat 3) (s.argNat 4) fun bs =>
      succeed (s.setSums
        (pseudoSum (s.arg 0) (s.arg 1) (s.argByte 2) (BitVec.ofNat 16 (s.argNat 4)) bs))
  else raise .badRange s

end Sys2Proof.Machine
end

