-- ==== Sys2Proof/Machine/Control.lean ====
section
/-! DEFINITION. The control command NOP (spec R210). -/

namespace Sys2Proof.Machine

open Sys2Proof

/-- NOP (R210): it completes without error and does nothing else. -/
def execNop (s : State) : Answer := succeed s

end Sys2Proof.Machine
end

