-- ==== Sys2Proof/Machine/Session.lean ====
section
/-! DEFINITION. The session table: SESS_FIND, SESS_READ, SESS_WRITE, SESS_FREE (spec R180 to R193). -/

namespace Sys2Proof.Machine

open Sys2Proof

/-- The 4-tuple of an inbound segment (R182): its source is the remote end, its destination the local end. -/
structure Tuple where
  sip : Word
  dip : Word
  sport : Half
  dport : Half
  deriving DecidableEq, Repr

/-- SESS_FIND's operands (R86): the two ports are packed in ARG2. -/
def State.argTuple (s : State) : Tuple := ⟨s.arg 0, s.arg 1, s.argHigh 2, s.argLow 2⟩

/-- `match(j)` of R182. -/
def Scb.hasTuple (b : Scb) (t : Tuple) : Bool :=
  b.rip == t.sip && b.lip == t.dip && b.rport == t.sport && b.lport == t.dport

/-- The slot SESS_FIND answers with: the lowest live one of the tuple (R183, R184). -/
def State.sessHit (s : State) (t : Tuple) : Option Nat :=
  lowest (fun b => b.live s.cfg s.now && b.hasTuple t) s.sess

/-- The slot an allocation takes: the lowest free one (R181, R183, R192). -/
def State.sessFree? (s : State) : Option Nat := lowest (fun b => !b.live s.cfg s.now) s.sess

/-- A newly allocated slot (R185): every field 0 but VALID, the tuple, the initial sequence number and the
activity tick. -/
def newScb (t : Tuple) (isn now : Word) : Scb :=
  { Scb.zero with
    valid := true, rip := t.sip, lip := t.dip, rport := t.sport, lport := t.dport, seq := isn, lastTick := now }

/-- Allocation of slot `j` (R185, R186): one value is taken from the ISN input. -/
def State.allocate (s : State) (j : Nat) (t : Tuple) : State :=
  (s.setSlot j (newScb t s.isn s.now)).takeIsn

/-- The two results of SESS_FIND: slot index and outcome code (R183). -/
def State.setFound (s : State) (index code : Word) : State := (s.setRes 0 index).setRes 1 code

/-- SESS_FIND (R183): HIT 0 changes nothing (R184), ALLOCATED 1 fills a free slot, NONE 2 is a result;
TABLE_FULL writes its two results as well (R226). -/
def execSessFind (syn : Bool) (s : State) : Answer :=
  match s.sessHit s.argTuple with
  | some h => succeed (s.setFound (BitVec.ofNat 32 h) 0#32)
  | none =>
    if syn then
      match s.sessFree? with
      | some j => succeed ((s.allocate j s.argTuple).setFound (BitVec.ofNat 32 j) 1#32)
      | none => raise .tableFull (s.setFound noIndex 2#32)
    else succeed (s.setFound noIndex 2#32)

/-- The LIVE pseudo-field (R36, R187): VALID for the OSCB, liveness for an inbound slot. -/
def State.liveField (s : State) (sel : Byte) (b : Scb) : Bool :=
  if sel = 0xFF#8 then b.valid else b.live s.cfg s.now

/-- SESS_READ (R187): BAD_INDEX before BAD_FIELD. -/
def execSessRead (s : State) : Answer :=
  match s.scb? (s.argByte 0) with
  | none => raise .badIndex s
  | some b =>
    if s.argByte 1 = liveIndex then succeed (s.setRes 0 (bit (s.liveField (s.argByte 0) b)))
    else
      match ScbField.ofIndex (s.argByte 1) with
      | some f => succeed (s.setRes 0 (b.get f))
      | none => raise .badField s

/-- The activity stamp of SESS_WRITE.T, after the field write (R188). -/
def Scb.stampIf (b : Scb) (stamp : Bool) (now : Word) : Scb :=
  if stamp then { b with lastTick := now } else b

/-- SESS_WRITE (R188): BAD_INDEX before BAD_FIELD; LIVE cannot be written. -/
def execSessWrite (stamp : Bool) (s : State) : Answer :=
  match s.scb? (s.argByte 0) with
  | none => raise .badIndex s
  | some b =>
    match ScbField.ofIndex (s.argByte 1) with
    | some f => succeed (s.setScb (s.argByte 0) ((b.put f (s.arg 2)).stampIf stamp s.now))
    | none => raise .badField s

/-- SESS_FREE (R189): every field of the selected SCB becomes 0. -/
def execSessFree (s : State) : Answer :=
  match s.scb? (s.argByte 0) with
  | none => raise .badIndex s
  | some _ => succeed (s.setScb (s.argByte 0) Scb.zero)

end Sys2Proof.Machine
end

