-- ==== Sys2Proof/Machine/Dispatch.lean ====
section
/-! DEFINITION. The meaning of every command, one arm for each (spec R84). -/

namespace Sys2Proof.Machine

open Sys2Proof

def exec (i : Instr) (s : State) : Host.Outcome State Fault Refusal :=
  match i with
  | .nop => Sys2Proof.Machine.execNop s
  | .csum => Sys2Proof.Machine.execCsum s
  | .csumFixup w => Sys2Proof.Machine.execCsumFixup w s
  | .csumPseudo => Sys2Proof.Machine.execCsumPseudo s
  | .arpLookup => Sys2Proof.Machine.execArpLookup s
  | .arpUpdate => Sys2Proof.Machine.execArpUpdate s
  | .arpRead => Sys2Proof.Machine.execArpRead s
  | .build => Sys2Proof.Machine.execBuild s
  | .reply => Sys2Proof.Machine.execReply s
  | .sessFind syn => Sys2Proof.Machine.execSessFind syn s
  | .sessRead => Sys2Proof.Machine.execSessRead s
  | .sessWrite stamp => Sys2Proof.Machine.execSessWrite stamp s
  | .sessFree => Sys2Proof.Machine.execSessFree s

end Sys2Proof.Machine
end

