-- ==== Sys2Proof/Machine/HostPort.lean ====
section
/-! DEFINITION. The host's accesses: the register file REG (spec R21 to R31, R67), the BUF port (R62, R256), and the
reset and tick inputs (R250, R259). -/

namespace Sys2Proof.Machine

open Sys2Proof

/-- The registers of REG (R21). -/
inductive Reg where
  | cmd | status | ctrl | tick | hostIp | hostMask | id | caps
  | arg (i : Fin 8)
  | res (i : Fin 8)
  | reserved
  deriving DecidableEq, Repr

/-- The register at an aligned offset, given as offset / 4 below 64 (R21). -/
def regOfIndex (k : Nat) : Reg :=
  match k with
  | 0 => .cmd
  | 1 => .status
  | 2 => .ctrl
  | 3 => .tick
  | 4 => .hostIp
  | 5 => .hostMask
  | 6 => .id
  | 7 => .caps
  | n + 8 =>
    if h : n < 8 then .arg ⟨n, h⟩
    else if h : n - 8 < 8 then .res ⟨n - 8, h⟩
    else .reserved

/-- The register an access reaches; none where the access is not an aligned 32-bit word of the 256 bytes (R67,
log entry 9). -/
def regAt (width offset : Nat) : Option Reg :=
  if width = 4 ∧ offset % 4 = 0 ∧ offset < 256 then some (regOfIndex (offset / 4)) else none

/-- ID (R27). -/
def idWord : Word := 0x4E534501#32

/-- CAPS (R28): SESS_ENTRIES in 7:0, ARP_ENTRIES in 15:8, BUF_BITS in 20:16, the rest 0. -/
def capsWord (c : Config) : Word :=
  0#11 ++ BitVec.ofNat 5 c.bufBits ++ BitVec.ofNat 8 c.arpEntries ++ BitVec.ofNat 8 c.sessEntries

/-- What a host read of a register returns (R21 to R31). It changes nothing (R31, R71). -/
def State.regValue (s : State) : Reg → Word
  | .cmd => s.cmd
  | .status => s.statusWord
  | .ctrl => s.ctrlWord
  | .tick => s.tick
  | .hostIp => s.hostIp
  | .hostMask => s.hostMask
  | .id => idWord
  | .caps => capsWord s.cfg
  | .arg i => s.args[i]
  | .res i => s.res[i]
  | .reserved => 0#32

/-- A host write to CMD (R22, R221, R229): accepted while idle, only recorded in OVR while BUSY. -/
def State.writeCmd (s : State) (w : Word) : State :=
  if s.busy then { s with ovr := true } else s.accept w

/-- A host write to CTRL (R24): SRST resets at once and discards IE, else bit 0 is IE. -/
def State.writeCtrl (s : State) (v : Word) : State :=
  if v.getLsbD 1 then s.resetNse else { s with ie := v.getLsbD 0 }

/-- A host write to a register (R21 to R31): a write to a read-only or reserved one is ignored. -/
def State.writeReg (s : State) (r : Reg) (v : Word) : State :=
  match r with
  | .cmd => s.writeCmd v
  | .status => s.writeStatus v
  | .ctrl => s.writeCtrl v
  | .hostIp => { s with hostIp := v }
  | .hostMask => { s with hostMask := v }
  | .arg i => { s with args := s.args.set i v }
  | .tick => s
  | .id => s
  | .caps => s
  | .res _ => s
  | .reserved => s

/-- A host read of a BUF byte (R62). A byte that nothing has written reads as any value (I6, log entry 6). -/
def State.readBuf (s : State) (a : Nat) : State :=
  match Memory.read s.buf a with
  | some b => { s with hostData := b.setWidth 32 }
  | none => { s with hostData := (Config.freeByte s.freeReads a).setWidth 32, freeReads := s.freeReads + 1 }

/-- A host write of a BUF byte (R62). -/
def State.writeBuf (s : State) (a : Nat) (b : Byte) : State := { s with buf := Memory.write s.buf a b }

/-- The guard of the BUF port: a fault while BUSY (R256), a fault where the port has no such address (log
entry 10). -/
def bufPort (s : State) (a : Nat) (t : State) : Answer :=
  if s.busy then .fault .bufWhileBusy
  else if a < s.cfg.bufSize then .next t
  else .fault .noSuchAddress

/-- One host access (R62, R67, R239). -/
def hostAccess (h : HostAccess) (s : State) : Answer :=
  match h with
  | .regRead width offset =>
    match regAt width offset with
    | some r => .next { s with hostData := s.regValue r }
    | none => .refused .badRegAccess
  | .regWrite width offset v =>
    match regAt width offset with
    | some r => .next (s.writeReg r v)
    | none => .refused .badRegAccess
  | .bufRead a => bufPort s a (s.readBuf a)
  | .bufWrite a b => bufPort s a (s.writeBuf a b)

/-- The tick input advances by +1 modulo `2^TICK_BITS`, 2^32 for this hardware (R42, R259). -/
def State.tickOnce (s : State) : State := { s with tick := tickValue s.cfg (s.tick + 1#32) }

end Sys2Proof.Machine
end

