-- ==== Sys2Proof/Machine/Engine.lean ====
section
/-! DEFINITION. The engine's execution step (spec R221) and the handling of one event. -/

namespace Sys2Proof.Machine

open Sys2Proof

/-- The execution step (R221): enabled exactly when `pending = 1`, it decodes the latched word and performs the
command, or raises ILLEGAL_CMD (R85). While nothing is pending the engine's turn changes nothing (log entry
17). -/
def engineStep (s : State) : Answer :=
  if s.pending then
    match decode s.latCmd with
    | .ok i => exec i s
    | .error _ => raise .illegalCmd s
  else .next s

/-- One event (log entry 1). -/
def perform (e : Event) (s : State) : Answer :=
  match e with
  | .host h => hostAccess h s
  | .engine => engineStep s
  | .tick => .next s.tickOnce
  | .reset => .next s.resetNse

/-- The rest of the agenda after its first event. -/
def State.withAgenda (s : State) (rest : List Event) : State := { s with agenda := rest }

/-- A command word placed where the engine takes its next one: accepted (R221), with the engine's turn next. -/
def State.placeCommand (s : State) (w : Word) : State :=
  (s.accept w).withAgenda (.engine :: s.agenda)

end Sys2Proof.Machine
end

