-- ==== Sys2Proof/Machine/Step.lean ====
section
/-! DEFINITION. One step of the machine: the next event of the agenda, or the engine's turn when the agenda is empty
(spec R75, R221, R264; log entries 1 and 2). -/

namespace Sys2Proof.Machine

open Sys2Proof

/-- One step. With no event left the engine runs a pending command (R264), and an idle machine stays as it is
(R237, R263). -/
def step (s : State) : Host.Outcome State Fault Refusal :=
  match s.agenda with
  | e :: rest => perform e (s.withAgenda rest)
  | [] => engineStep s

/-- `s` with an instruction of the opcode table accepted and its execution next (R221). The NSE fetches nothing
(R78): a command comes by a write to CMD, which this stands for (log entry 1). Every row has 32 bits (R90). -/
def State.withFetchWord (s : State) (_nbits w : Nat) : State := s.placeCommand (BitVec.ofNat 32 w)

end Sys2Proof.Machine
end

