-- ==== Sys2Proof/Safety.lean ====
section
/-! DEFINITION. What the claims speak of: the invariant of the machine, uniqueness in the two tables (spec R41, R190),
which commands write what (R86, R88), and steps that keep going. -/

namespace Sys2Proof.Safety

open Sys2Proof Sys2Proof.Machine

/-- No two valid ARP entries hold one address (R41). -/
def arpUnique (l : List ArpEntry) : Prop :=
  ∀ (i j : Nat) (e f : ArpEntry), l[i]? = some e → l[j]? = some f → e.valid = true → f.valid = true → e.ip = f.ip → i = j

/-- At one tick no two live slots hold one 4-tuple (R37, R190). -/
def sessUnique (c : Config) (now : Word) (l : List Scb) : Prop :=
  ∀ (i j : Nat) (b d : Scb) (t : Tuple), l[i]? = some b → l[j]? = some d → b.live c now = true → d.live c now = true →
    b.hasTuple t = true → d.hasTuple t = true → i = j

/-- What every step keeps, from every state that has it. The first three fields tie the tables to the
parameters (R5, R33, R40); `bufWf` is the canonical form of BUF; the rest is the handshake of R44, R221 and
R227, the uniqueness of R41, and the width of the tick input (R42). -/
structure NseInv (s : State) : Prop where
  cfgLegal : s.cfg.legal = true
  sessLength : s.sess.length = s.cfg.sessEntries
  arpLength : s.arp.length = s.cfg.arpEntries
  bufWf : Memory.wf s.cfg.bufSize s.buf = true
  pendingIsBusy : s.pending = s.busy
  busyNotDone : s.busy = true → s.done = false
  busyNoError : s.busy = true → s.err = .ok
  pendingLatched : s.pending = true → s.latCmd = s.cmd
  arpUnique : arpUnique s.arp
  tickInRange : s.tick.toNat < 2 ^ s.cfg.tickBits
  nowInRange : s.now.toNat < 2 ^ s.cfg.tickBits

/-- The RES registers R86 lists for a command. -/
def resultRegs : Instr → List (Fin 8)
  | .nop => []
  | .csum => [0, 1]
  | .csumFixup _ => [0]
  | .csumPseudo => [0, 1]
  | .arpLookup => [0, 1, 2, 3]
  | .arpUpdate => [0, 1]
  | .arpRead => [0, 1, 2, 3, 4, 5]
  | .build => [0, 1, 2, 3]
  | .reply => [0, 1, 2, 3]
  | .sessFind _ => [0, 1]
  | .sessRead => [0]
  | .sessWrite _ => []
  | .sessFree => []

/-- The commands that may write bytes of BUF (R60). -/
def writesBuf : Instr → Bool
  | .build => true
  | .reply => true
  | .nop => false
  | .csum => false
  | .csumFixup _ => false
  | .csumPseudo => false
  | .arpLookup => false
  | .arpUpdate => false
  | .arpRead => false
  | .sessFind _ => false
  | .sessRead => false
  | .sessWrite _ => false
  | .sessFree => false

/-- The commands that may write the ARP cache: ARP_UPDATE alone (R40). -/
def writesArp : Instr → Bool
  | .arpUpdate => true
  | .nop => false
  | .csum => false
  | .csumFixup _ => false
  | .csumPseudo => false
  | .arpLookup => false
  | .arpRead => false
  | .build => false
  | .reply => false
  | .sessFind _ => false
  | .sessRead => false
  | .sessWrite _ => false
  | .sessFree => false

/-- The commands that may write an SCB: the builder its IPID, SESS_FIND a slot it allocates for a SYN,
SESS_WRITE and SESS_FREE the one they select. -/
def writesScb : Instr → Bool
  | .build => true
  | .reply => true
  | .sessFind syn => syn
  | .sessWrite _ => true
  | .sessFree => true
  | .nop => false
  | .csum => false
  | .csumFixup _ => false
  | .csumPseudo => false
  | .arpLookup => false
  | .arpUpdate => false
  | .arpRead => false
  | .sessRead => false

/-- Two states agree on everything a command never writes: the parameters, CMD, OVR, CTRL, HOST_IP,
HOST_MASK, ARG, the code STATUS shows while BUSY, the latches, the tick input and the model's own fields but the ISN
source. -/
def sameOutsideCommand (s t : State) : Prop :=
  t.cfg = s.cfg ∧ t.cmd = s.cmd ∧ t.ovr = s.ovr ∧ t.ie = s.ie ∧ t.hostIp = s.hostIp ∧
    t.hostMask = s.hostMask ∧ t.args = s.args ∧ t.prevErr = s.prevErr ∧ t.latCmd = s.latCmd ∧ t.latArgs = s.latArgs ∧
    t.latIp = s.latIp ∧ t.latMask = s.latMask ∧ t.now = s.now ∧ t.tick = s.tick ∧
    t.freeReads = s.freeReads ∧ t.hostData = s.hostData ∧ t.agenda = s.agenda

/-- An answer with a function applied to its next state. -/
def mapNext (f : State → State) : Answer → Answer
  | .next t => .next (f t)
  | .fault r => .fault r
  | .refused r => .refused r

/-- What the host may write while a command is in progress, the tick input, and the place in the platform's address
map: ARG, HOST_IP, HOST_MASK, IE (R258), the tick (R232), NSE_BASE (R235). -/
def withHostInputs (args : Vector Word 8) (ip mask tick : Word) (ie : Bool) (base : Nat) (s : State) : State :=
  { s with
    args := args, hostIp := ip, hostMask := mask, tick := tick, ie := ie, cfg := { s.cfg with nseBase := base } }

/-- The SCB a selector names, with other values of VALID and LAST_TICK (R160). -/
def withLiveness (sel : Byte) (valid : Bool) (lastTick : Word) (s : State) : State :=
  match s.scb? sel with
  | some b => s.setScb sel { b with valid := valid, lastTick := lastTick }
  | none => s

/-- It is the engine's turn in `s`, and `u` is the state the engine acts on: `s` itself when the agenda is
empty, else `s` without the engine event (log entries 1 and 2). -/
def engineTurn (s u : State) : Prop :=
  (s.agenda = [] ∧ u = s) ∨ ∃ rest, s.agenda = .engine :: rest ∧ u = s.withAgenda rest

/-- A command word selects a row of the opcode map, with the value of its MOD bit (R82, R84). -/
def rowSelects (w : Word) (i : Instr) : Prop :=
  w &&& rowMask i = rowMatch i ∧ ∀ m, modBit i = some m → w.getLsbD 8 = m

/-- The two sources of reset (R250): the reset input, and a write of 1 to CTRL.SRST. -/
def resetEvent (e : Event) : Prop :=
  e = .reset ∨ ∃ v : Word, e = .host (.regWrite 4 0x08 v) ∧ v.getLsbD 1 = true

/-- The errors R222 lets a command raise, with OK. -/
def errorsOf : Instr → List ErrCode
  | .nop => [.ok]
  | .csum => [.ok, .badRange]
  | .csumFixup _ => [.ok]
  | .csumPseudo => [.ok, .badRange]
  | .arpLookup => [.ok]
  | .arpUpdate => [.ok]
  | .arpRead => [.ok, .badIndex]
  | .build => [.ok, .badIndex, .badProto, .badRange, .allocFail]
  | .reply => [.ok, .badIndex, .badRange, .badPacket, .allocFail]
  | .sessFind syn => if syn then [.ok, .tableFull] else [.ok]
  | .sessRead => [.ok, .badIndex, .badField]
  | .sessWrite _ => [.ok, .badIndex, .badField]
  | .sessFree => [.ok, .badIndex]

/-- The fields whose writing can break uniqueness (R190). -/
def keyField : ScbField → Bool
  | .valid => true
  | .lip => true
  | .rip => true
  | .lport => true
  | .rport => true
  | .lastTick => true
  | _ => false

/-- The command is a SESS_WRITE that sets a key field, or LAST_TICK by its stamp, of an inbound slot (R190). -/
def setsSessionKey (i : Instr) (s : State) : Prop :=
  ∃ stamp, i = .sessWrite stamp ∧ s.argByte 0 ≠ 0xFF#8 ∧
    (stamp = true ∨ ∃ f, ScbField.ofIndex (s.argByte 1) = some f ∧ keyField f = true)

/-- `n` bytes of a byte string from offset `k`. -/
def slice (f : List Byte) (k n : Nat) : List Byte := (f.drop k).take n

/-- A frame REPLY accepts (R155): IPv4, TCP, a header of `ihl` words and room for a TCP header. -/
def tcpFrame (f : List Byte) (ihl : Nat) : Prop :=
  34 ≤ f.length ∧ slice f 12 2 = [0x08#8, 0x00#8] ∧
    (∃ vh : Byte, f[14]? = some vh ∧ vh.toNat / 16 = 4 ∧ vh.toNat % 16 = ihl) ∧
    5 ≤ ihl ∧ 14 + 4 * ihl + 20 ≤ f.length ∧ f[23]? = some 6#8

/-- The addresses and ports of an inbound frame, swapped (R155): the TCP header stands after `ihl` words. -/
def swappedEnds (f : List Byte) (ihl : Nat) : Ends where
  dmac := BitVec.ofNat 48 (beNat (slice f 6 6))
  smac := BitVec.ofNat 48 (beNat (slice f 0 6))
  sip := BitVec.ofNat 32 (beNat (slice f 30 4))
  dip := BitVec.ofNat 32 (beNat (slice f 26 4))
  sport := BitVec.ofNat 16 (beNat (slice f (14 + 4 * ihl + 2) 2))
  dport := BitVec.ofNat 16 (beNat (slice f (14 + 4 * ihl) 2))

/-- What BUILD and REPLY leave when they complete (R154 to R158): the frame's bytes at `o` and no other byte
changed, IPID plus 1 in the selected SCB and no other table entry changed, RES0 to RES3 (RES3 whatever
FRAG_OK is), STATUS, and nothing else. -/
structure FrameSent (s t : State) (sel : Byte) (p : Proto) (b : Scb) (o : Nat) (frame : List Byte) : Prop where
  length : frame.length = frameLen p b
  inside : ∀ k, k < frame.length → Memory.read t.buf (o + k) = frame[k]?
  outside : ∀ x, (x < o ∨ o + frame.length ≤ x) → Memory.read t.buf x = Memory.read s.buf x
  ipid : t.scb? sel = some { b with ipid := b.ipid + 1#16 }
  otherScbs : ∀ sel', sel' ≠ sel → t.scb? sel' = s.scb? sel'
  tableSize : t.sess.length = s.sess.length
  arp : t.arp = s.arp
  res0 : t.res[0] = BitVec.ofNat 32 (frameLen p b)
  res1 : t.res[1] = BitVec.ofNat 32 (totalLen p b)
  res2 : t.res[2] = b.mtu.setWidth 32
  res3 : t.res[3] = if b.mtu ≠ 0#16 ∧ b.mtu.toNat < totalLen p b then 1#32 else 0#32
  otherRes : ∀ k : Fin 8, 4 ≤ k.val → t.res[k] = s.res[k]
  isn : t.isnInputs = s.isnInputs ∧ t.isnDraws = s.isnDraws
  status : t.err = .ok ∧ t.busy = false ∧ t.done = true ∧ t.pending = false
  rest : sameOutsideCommand s t

end Sys2Proof.Safety
end

