-- ==== Sys2Proof/Certificates/Slice0/Obligations.lean ====
section
/-! DEFINITION. The statements for the provers, from the spec's numbered rules. Each docstring names the rule. Where a
statement speaks of `step`, the events come from the agenda, which is the model's form of the total order of R75
(log entries 1 and 2, DESIGN CHOICE and DEDUCED): such a statement is derived, not stated by a rule. -/

open Sys2Proof Sys2Proof.Machine Sys2Proof.Safety

/-! ### Command words (R80 to R90) -/

/-- R84, R85: over all 2^32 words, a word decodes to a command exactly when it is that command's encoding. -/
def Obligations.DecodeInvertsEncode : Prop :=
  ∀ (w : Word) (i : Instr), decode w = .ok i ↔ encode i = w

/-- R85: every word either selects exactly one row of the opcode map, and decodes to it, or selects none, and
the engine raises ILLEGAL_CMD with no other effect. -/
def Obligations.EveryWordSelectsOneRowOrIsIllegal : Prop :=
  ∀ w : Word,
    (∃ i, rowSelects w i ∧ decode w = .ok i ∧ ∀ j, rowSelects w j → j = i) ∨
    ((∀ i, ¬ rowSelects w i) ∧
      ∀ u : State, u.pending = true → u.latCmd = w →
        engineStep u = .next { u with err := .illegalCmd, busy := false, done := true, pending := false })

/-- R84: sample words of each unit, written from the opcode map. -/
def Obligations.SampleWordsDecode : Prop :=
  decode 0x00000000#32 = .ok .nop ∧ decode 0x00000001#32 = .ok .csum ∧
    decode 0x00000002#32 = .ok (.csumFixup false) ∧ decode 0x00000102#32 = .ok (.csumFixup true) ∧
    decode 0x00000011#32 = .ok .arpUpdate ∧ decode 0x00000021#32 = .ok .reply ∧
    decode 0x00000130#32 = .ok (.sessFind true) ∧ decode 0x00000132#32 = .ok (.sessWrite true)

/-! ### The life of a command (R221 to R230) -/

/-- R75, R221, with the model's agenda (log entries 1 and 2): a step performs the first event of the agenda, and
an empty agenda is the engine's turn. At the engine's turn a pending command word that decodes is executed: the
step is `exec` of the command. -/
def Obligations.StepRunsDecodedCommand : Prop :=
  (∀ s u i, engineTurn s u → u.pending = true → decode u.latCmd = .ok i → step s = exec i u) ∧
  (∀ s e rest, s.agenda = e :: rest → step s = perform e { s with agenda := rest })

/-- R221 (acceptance), as the next event (log entry 1): a CMD write while BUSY = 0 writes CMD and the latches,
samples the tick, sets BUSY and `pending` and clears DONE and ERR; OVR and all else stay. `prevErr` keeps the code that
STATUS shows while BUSY = 1 (R257, log entry 21). -/
def Obligations.CmdWriteWhileIdleIsAccepted : Prop :=
  ∀ (s : State) (w : Word) rest, s.agenda = .host (.regWrite 4 0x00 w) :: rest → s.busy = false →
    step s = .next { s with
      cmd := w, latCmd := w, latArgs := s.args, latIp := s.hostIp, latMask := s.hostMask, now := s.tick,
      busy := true, done := false, err := .ok, prevErr := s.err, pending := true, agenda := rest }

/-- R229: a CMD write while BUSY = 1 sets OVR and has no other effect, and OVR is cleared only by a STATUS
write with bit 2 = 1 or by reset. -/
def Obligations.OverrunIsStickyAndHarmless : Prop :=
  (∀ (s : State) (w : Word), s.busy = true →
    perform (.host (.regWrite 4 0x00 w)) s = .next { s with ovr := true }) ∧
  (∀ e s t, perform e s = .next t → s.ovr = true → t.ovr = false →
    resetEvent e ∨ ∃ v : Word, e = .host (.regWrite 4 0x04 v) ∧ v.getLsbD 2 = true)

/-- R227, R254: DONE is cleared only by a STATUS write with bit 1 = 1, the acceptance of a command, or reset; so a
step on the model's empty agenda (log entry 1) never clears it. -/
def Obligations.DoneIsClearedOnlyByHostOrReset : Prop :=
  ∀ s t, step s = .next t → s.done = true → t.done = false →
    ∃ e rest, s.agenda = e :: rest ∧
      (resetEvent e ∨ (∃ v : Word, e = .host (.regWrite 4 0x04 v) ∧ v.getLsbD 1 = true) ∨
        ∃ w : Word, e = .host (.regWrite 4 0x00 w) ∧ s.busy = false)

/-- R221, R227, R228, R243: every command that completes sets DONE and clears BUSY and `pending`, and the interrupt
line is then CTRL.IE; so does every execution step of a pending word, an illegal one included. In every state the line is
CTRL.IE and DONE, so it is low while DONE = 0. A completion writes STATUS and `pending` and nothing else. -/
def Obligations.CompletionSetsStatusAndInterrupt : Prop :=
  (∀ i s t, exec i s = .next t →
    t.done = true ∧ t.busy = false ∧ t.pending = false ∧ t.irq = s.ie) ∧
  (∀ s t, s.pending = true → engineStep s = .next t →
    t.done = true ∧ t.busy = false ∧ t.pending = false ∧ t.irq = s.ie) ∧
  (∀ s : State, s.irq = (s.ie && s.done)) ∧
  (∀ (s : State) code, s.complete code = { s with err := code, busy := false, done := true, pending := false })

/-- R224: an error other than TABLE_FULL changes no state except STATUS (`pending` is the model's twin of BUSY, log
entry 14): for every command, and for the execution step, which raises ILLEGAL_CMD as well. -/
def Obligations.ErrorsArePrecise : Prop :=
  (∀ i s t, exec i s = .next t → t.err ≠ .ok → t.err ≠ .tableFull →
    t = { s with err := t.err, busy := false, done := true, pending := false }) ∧
  (∀ s t, s.pending = true → engineStep s = .next t → t.err ≠ .ok → t.err ≠ .tableFull →
    t = { s with err := t.err, busy := false, done := true, pending := false })

/-- R222, R223: the errors a command can report are those R222 lists for it; NOP, CSUM_FIXUP, ARP_LOOKUP,
ARP_UPDATE and a non-SYN SESS_FIND complete without error from every state: a miss, an ignored update and an
empty search are results. -/
def Obligations.CommandsRaiseOnlyTheirErrors : Prop :=
  (∀ i s t, exec i s = .next t → t.err ∈ errorsOf i) ∧
  (∀ i s, (i = .nop ∨ (∃ w, i = .csumFixup w) ∨ i = .arpLookup ∨ i = .arpUpdate ∨ i = .sessFind false) →
    ∃ t, exec i s = .next t ∧ t.err = .ok)

/-! ### Frames over all commands -/

/-- R70, R88, R221: no command changes the parameters, CMD, OVR, CTRL, HOST_IP, HOST_MASK, ARG, the latches, the
tick input or the model's own fields but the ISN source, which a SYN's SESS_FIND draws from (log entry 7). -/
def Obligations.CommandsLeaveHostStateAlone : Prop :=
  ∀ i s t, exec i s = .next t → sameOutsideCommand s t

/-- R88: a command writes only the RES registers R86 lists for it, and none when it ends in an error other than
TABLE_FULL; `setRes` writes one RES register and nothing else. R257 (with log entry 21 for ERR): what the host reads
from RES and from the ERR field of STATUS changes only at a completion or a reset, so while BUSY = 1 it is what the
previous command left. -/
def Obligations.OnlyListedResultRegistersChange : Prop :=
  (∀ i s t, exec i s = .next t →
    (∀ k : Fin 8, k ∉ resultRegs i → t.res[k] = s.res[k]) ∧
    (t.err ≠ .ok → t.err ≠ .tableFull → t.res = s.res)) ∧
  (∀ (s : State) (i k : Fin 8) (v : Word),
    (s.setRes i v).res[k] = (if k = i then v else s.res[k]) ∧ s.setRes i v = { s with res := (s.setRes i v).res }) ∧
  (∀ s t, step s = .next t →
    ((t.regValue .status).extractLsb' 8 4 ≠ (s.regValue .status).extractLsb' 8 4 ∨
      ∃ i, t.regValue (.res i) ≠ s.regValue (.res i)) →
    (s.pending = true ∧ t.busy = false ∧ t.done = true) ∨ ∃ e rest, s.agenda = e :: rest ∧ resetEvent e)

/-- R40, R60, R100, R160: BUF changes only by BUILD and REPLY, the ARP cache only by ARP_UPDATE, SCBs only by
the builder, a SYN's SESS_FIND, SESS_WRITE and SESS_FREE, and the ISN source only by a SYN's SESS_FIND. -/
def Obligations.StorageChangesOnlyByItsCommands : Prop :=
  ∀ i s t, exec i s = .next t →
    (writesBuf i = false → t.buf = s.buf ∧ ∀ a, Memory.read t.buf a = Memory.read s.buf a) ∧
    (writesArp i = false → t.arp = s.arp) ∧
    (writesScb i = false → t.sess = s.sess ∧ t.oscb = s.oscb) ∧
    (i ≠ .sessFind true → t.isnInputs = s.isnInputs ∧ t.isnDraws = s.isnDraws)

/-- R232, R235, R258: a command does not read ARG, HOST_IP, HOST_MASK, CTRL, the tick input or NSE_BASE: with any
other values there it does the same, and leaves those values. R86: an operand is the latched register or a part of it. -/
def Obligations.CommandUsesOnlyLatchedInputs : Prop :=
  (∀ i s args ip mask tick ie base,
    exec i (withHostInputs args ip mask tick ie base s) =
      mapNext (withHostInputs args ip mask tick ie base) (exec i s)) ∧
  (∀ (s : State) (k : Fin 8), s.arg k = s.latArgs[k] ∧ s.argNat k = (s.latArgs[k]).toNat ∧
    (s.argByte k).toNat = s.argNat k % 2 ^ 8 ∧ (s.argLow k).toNat = s.argNat k % 2 ^ 16 ∧
    (s.argHigh k).toNat = s.argNat k / 2 ^ 16)

/-! ### The host's registers and inputs (R21 to R31, R42, R67) -/

/-- R21, R27, R28: every aligned offset reaches the register the map names; ID is 0x4E534501, and with legal
parameters CAPS shows SESS_ENTRIES, ARP_ENTRIES and BUF_BITS in its fields, the rest 0. R22, R25, R26, R29, R30: what
a host read of every other register but STATUS and CTRL shows (those two: StatusAndCtrlBits). -/
def Obligations.RegisterMapIdAndCaps : Prop :=
  regAt 4 0x00 = some .cmd ∧ regAt 4 0x04 = some .status ∧ regAt 4 0x08 = some .ctrl ∧
    regAt 4 0x0C = some .tick ∧ regAt 4 0x10 = some .hostIp ∧ regAt 4 0x14 = some .hostMask ∧
    regAt 4 0x18 = some .id ∧ regAt 4 0x1C = some .caps ∧
    (∀ i : Fin 8, regAt 4 (0x20 + 4 * i.val) = some (.arg i)) ∧
    (∀ i : Fin 8, regAt 4 (0x40 + 4 * i.val) = some (.res i)) ∧
    (∀ k : Fin 40, regAt 4 (0x60 + 4 * k.val) = some .reserved) ∧
    (∀ s : State, s.regValue .cmd = s.cmd ∧ s.regValue .tick = s.tick ∧ s.regValue .hostIp = s.hostIp ∧
      s.regValue .hostMask = s.hostMask ∧ (∀ i, s.regValue (.arg i) = s.args[i]) ∧
      (∀ i, s.regValue (.res i) = s.res[i]) ∧ s.regValue .reserved = 0#32) ∧
    (∀ s : State, s.regValue .id = 0x4E534501#32) ∧
    (∀ s : State, s.cfg.legal = true → (s.regValue .caps).toNat =
      s.cfg.sessEntries + 2 ^ 8 * s.cfg.arpEntries + 2 ^ 16 * s.cfg.bufBits)

/-- R31: a host write to a read-only register or field changes nothing, and a host read of any register has no
side effect on the NSE (`hostData` is the model's record of what was read, log entry 11). -/
def Obligations.ReadOnlyWritesAndReadsHaveNoEffect : Prop :=
  (∀ (s : State) rest off (v : Word) r, s.agenda = .host (.regWrite 4 off v) :: rest →
    regAt 4 off = some r →
    (r = .tick ∨ r = .id ∨ r = .caps ∨ r = .reserved ∨ (∃ i, r = .res i) ∨
      (r = .status ∧ v.getLsbD 1 = false ∧ v.getLsbD 2 = false)) →
    step s = .next { s with agenda := rest }) ∧
  (∀ (s : State) rest off r, s.agenda = .host (.regRead 4 off) :: rest → regAt 4 off = some r →
    step s = .next { s with hostData := s.regValue r, agenda := rest })

/-- R23, R24: a host write to STATUS clears DONE where bit 1 is 1 and OVR where bit 2 is 1 and changes nothing
else; a CTRL write with SRST = 0 sets IE to bit 0 and changes nothing else; STATUS reads BUSY, DONE, OVR and ERR
at bits 0, 1, 2 and 11:8, CTRL reads IE at bit 0, their other bits 0. While BUSY = 1 the ERR field shows the code the
previous command left (R257, log entry 21). R222: the numbers of the nine codes. -/
def Obligations.StatusAndCtrlBits : Prop :=
  (∀ (s : State) (v : Word) rest, s.agenda = .host (.regWrite 4 0x04 v) :: rest →
    step s = .next { s with
      done := s.done && !v.getLsbD 1, ovr := s.ovr && !v.getLsbD 2, agenda := rest }) ∧
  (∀ (s : State) (v : Word) rest, s.agenda = .host (.regWrite 4 0x08 v) :: rest → v.getLsbD 1 = false →
    step s = .next { s with ie := v.getLsbD 0, agenda := rest }) ∧
  (∀ s : State, (s.regValue .status).toNat =
    s.busy.toNat + 2 * s.done.toNat + 4 * s.ovr.toNat
      + 256 * (if s.busy then s.prevErr else s.err).code.toNat) ∧
  (∀ s : State, (s.regValue .ctrl).toNat = s.ie.toNat) ∧
  ErrCode.code .ok = 0#4 ∧ ErrCode.code .illegalCmd = 1#4 ∧ ErrCode.code .badIndex = 2#4 ∧
    ErrCode.code .badField = 3#4 ∧ ErrCode.code .badRange = 4#4 ∧ ErrCode.code .badProto = 5#4 ∧
    ErrCode.code .badPacket = 6#4 ∧ ErrCode.code .allocFail = 7#4 ∧ ErrCode.code .tableFull = 8#4

/-- R25, R29: HOST_IP, HOST_MASK and the ARG registers read back what was written, and a write changes no other
register. -/
def Obligations.WritableRegistersReadBack : Prop :=
  ∀ (s : State) (v : Word) rest off r, s.agenda = .host (.regWrite 4 off v) :: rest →
    regAt 4 off = some r → (r = .hostIp ∨ r = .hostMask ∨ ∃ i, r = .arg i) →
    ∃ t, step s = .next t ∧ t.regValue r = v ∧ (∀ q, q ≠ r → t.regValue q = s.regValue q) ∧
      t = { s with hostIp := t.hostIp, hostMask := t.hostMask, args := t.args, agenda := rest }

/-- R67 (log entry 9 for the offsets above 0xFF): a register access that is not an aligned 32-bit word of the 256
bytes is refused. -/
def Obligations.OtherRegisterAccessIsRefused : Prop :=
  ∀ (s : State) rest width off (v : Word), ¬ (width = 4 ∧ off % 4 = 0 ∧ off < 256) →
    (s.agenda = .host (.regRead width off) :: rest ∨ s.agenda = .host (.regWrite width off v) :: rest) →
    step s = .refused .badRegAccess

/-- R42, R259: the tick input advances by +1 modulo 2^32, which is `2^TICK_BITS` at the 32 bits of R5, and nothing
else changes; no other event changes it. The widths below 32 are the model's choice (log entry 4). -/
def Obligations.TickAdvancesByOneOnly : Prop :=
  (∀ (s : State) rest, s.agenda = .tick :: rest → s.cfg.tickBits = 32 →
    step s = .next { s with tick := s.tick + 1#32, agenda := rest }) ∧
  (∀ (s : State) rest, s.agenda = .tick :: rest → s.cfg.tickBits ≤ 32 →
    ∃ t, step s = .next t ∧ t.tick.toNat = (s.tick.toNat + 1) % 2 ^ s.cfg.tickBits ∧
      t = { s with tick := t.tick, agenda := rest }) ∧
  (∀ s t, step s = .next t → t.tick ≠ s.tick → ∃ rest, s.agenda = .tick :: rest)

/-! ### BUF (R61 to R79) -/

/-- R62, R256: the host's BUF port. A write sets one byte and no other, a read returns the byte (into `hostData`, the
model's record, log entry 11), and either one while BUSY is a fault, whatever the address (that BUSY is checked
before the address is the model's choice, log entry 8). -/
def Obligations.HostBufPort : Prop :=
  (∀ (s : State) a (b : Byte), s.busy = false → a < s.cfg.bufSize →
    ∃ t, perform (.host (.bufWrite a b)) s = .next t ∧ Memory.read t.buf a = some b ∧
      (∀ x, x ≠ a → Memory.read t.buf x = Memory.read s.buf x) ∧ t = { s with buf := t.buf }) ∧
  (∀ (s : State) a (b : Byte), s.busy = false → a < s.cfg.bufSize → Memory.read s.buf a = some b →
    perform (.host (.bufRead a)) s = .next { s with hostData := b.setWidth 32 }) ∧
  (∀ (s : State) a (b : Byte), s.busy = true →
    perform (.host (.bufRead a)) s = .fault .bufWhileBusy ∧
      perform (.host (.bufWrite a b)) s = .fault .bufWhileBusy)

/-- R79: an engine read of a byte that nothing has written since power-up is a fault: CSUM and CSUM_PSEUDO over
such a range stop, BUILD and REPLY stop on such a payload byte at TXPTR, and REPLY on such a byte of the inbound frame
that it reads: the Ethernet type, the version byte, the protocol, an address or a port (R155). -/
def Obligations.UnwrittenByteFaults : Prop :=
  (∀ (s : State) k,
    (s.argNat 0 + s.argNat 1 ≤ s.cfg.bufSize → k < s.argNat 1 → Memory.read s.buf (s.argNat 0 + k) = none →
      exec .csum s = .fault .unwrittenRead) ∧
    (s.argNat 4 ≤ 0xFFFF → s.argNat 3 + s.argNat 4 ≤ s.cfg.bufSize → k < s.argNat 4 →
      Memory.read s.buf (s.argNat 3 + k) = none → exec .csumPseudo s = .fault .unwrittenRead)) ∧
  (∀ (s : State) (b : Scb) (p : Proto) k, s.scb? (s.argByte 0) = some b → Proto.ofNumber b.proto = some p →
    s.argNat 1 + s.argNat 2 ≤ s.cfg.bufSize → b.txptr.toNat + payloadLen p b ≤ s.cfg.bufSize →
    totalLen p b ≤ 0xFFFF → frameLen p b ≤ s.argNat 2 → b.txptr ≠ 0#32 →
    k < payloadLen p b → Memory.read s.buf (b.txptr.toNat + k) = none → exec .build s = .fault .unwrittenRead) ∧
  (∀ (s : State) (b : Scb), s.scb? (s.argByte 0) = some b → s.argNat 1 + s.argNat 2 ≤ s.cfg.bufSize →
    s.argNat 3 + s.argNat 4 ≤ s.cfg.bufSize →
    (b.txptr = 0#32 ∨ b.txptr.toNat + payloadLen .tcp b ≤ s.cfg.bufSize) → totalLen .tcp b ≤ 0xFFFF →
    34 ≤ s.argNat 2 →
    ((∃ k < 2, Memory.read s.buf (s.argNat 1 + 12 + k) = none) → exec .reply s = .fault .unwrittenRead) ∧
    (Memory.readBytes s.buf (s.argNat 1 + 12) 2 = some [0x08#8, 0x00#8] →
      (Memory.read s.buf (s.argNat 1 + 14) = none → exec .reply s = .fault .unwrittenRead) ∧
      ∀ vh : Byte, Memory.read s.buf (s.argNat 1 + 14) = some vh → vh.toNat / 16 = 4 → 5 ≤ vh.toNat % 16 →
        14 + 4 * (vh.toNat % 16) + 20 ≤ s.argNat 2 →
        (Memory.read s.buf (s.argNat 1 + 23) = none → exec .reply s = .fault .unwrittenRead) ∧
        (Memory.read s.buf (s.argNat 1 + 23) = some 6#8 → frameLen .tcp b ≤ s.argNat 4 →
          ((∃ k, (k < 12 ∨ (26 ≤ k ∧ k < 34) ∨
              (14 + 4 * (vh.toNat % 16) ≤ k ∧ k < 14 + 4 * (vh.toNat % 16) + 4)) ∧
            Memory.read s.buf (s.argNat 1 + k) = none) → exec .reply s = .fault .unwrittenRead) ∧
          ((∃ k < payloadLen .tcp b, b.txptr ≠ 0#32 ∧ Memory.read s.buf (b.txptr.toNat + k) = none) →
            exec .reply s = .fault .unwrittenRead))))

/-! ### Reset (R250 to R254) -/

/-- R251: the registers and latches after power-on reset and after either source of reset. -/
def Obligations.ResetClearsRegisters : Prop :=
  ∀ t : State, (t = State.reset ∨ ∃ s e, resetEvent e ∧ perform e s = .next t) →
    t.regValue .cmd = 0 ∧ t.regValue .status = 0 ∧ t.regValue .ctrl = 0 ∧ t.regValue .hostIp = 0 ∧
      t.regValue .hostMask = 0 ∧ (∀ i, t.regValue (.arg i) = 0) ∧ (∀ i, t.regValue (.res i) = 0) ∧
      t.regValue .tick = t.tick ∧ t.regValue .id = 0x4E534501#32 ∧ t.regValue .caps = capsWord t.cfg ∧
      t.regValue .reserved = 0 ∧ t.latCmd = 0 ∧ (∀ i : Fin 8, t.latArgs[i] = 0) ∧ t.latIp = 0 ∧
      t.latMask = 0 ∧ t.now = 0 ∧ t.pending = false ∧ t.irq = false

/-- R252: after either reset every inbound slot, the OSCB and every ARP entry has every field 0, and no SCB is
live; all 26 fields of `Scb.zero` and the four of `ArpEntry.zero` are 0. -/
def Obligations.ResetClearsTables : Prop :=
  ∀ t : State, (t = State.reset ∨ ∃ s e, resetEvent e ∧ perform e s = .next t) →
    t.sess = List.replicate t.cfg.sessEntries Scb.zero ∧ t.oscb = Scb.zero ∧
      t.arp = List.replicate t.cfg.arpEntries ArpEntry.zero ∧
      (∀ sel b, t.scb? sel = some b → b.valid = false ∧ t.liveField sel b = false) ∧
      (∀ f, Scb.zero.get f = 0#32) ∧ ArpEntry.zero = ⟨false, 0#32, 0#48, 0#32⟩

/-- R253, R254: either reset, at any time, keeps BUF, the tick and the ISN input, and leaves no command in
progress and no completion. -/
def Obligations.ResetKeepsBufAndAbandonsCommand : Prop :=
  ∀ (s : State) e, resetEvent e →
    ∃ t, perform e s = .next t ∧ t.buf = s.buf ∧ t.tick = s.tick ∧ t.isnInputs = s.isnInputs ∧
      t.isnDraws = s.isnDraws ∧ t.cfg = s.cfg ∧
      t.pending = false ∧ t.busy = false ∧ t.done = false ∧ t.irq = false

/-! ### Control and checksum unit (R100 to R108, R210) -/

/-- R210: NOP completes without error and does nothing else. -/
def Obligations.NopOnlyCompletes : Prop :=
  encode .nop = 0x00000000#32 ∧
  ∀ s : State, exec .nop s = .next { s with err := .ok, busy := false, done := true, pending := false }

/-- R8: `fold` is the end-around-carry reduction: below 2^16, unchanged by folding once, 0 only at 0, and
congruent modulo 0xFFFF. `ocsum` folds in the 16-bit big-endian words one after another, an odd last byte with a zero
byte after it, and the checksum is its complement. -/
def Obligations.FoldIsEndAroundCarry : Prop :=
  (∀ n : Nat, fold n < 0x10000 ∧ (n < 0x10000 → fold n = n) ∧ fold (n % 0x10000 + n / 0x10000) = fold n ∧
    (fold n = 0 ↔ n = 0) ∧ fold n % 0xFFFF = n % 0xFFFF) ∧
  (∀ i : Half, ocsum i [] = i ∧
    (∀ b, (ocsum i [b]).toNat = fold (i.toNat + 256 * b.toNat)) ∧
    (∀ b c bs, ocsum i (b :: c :: bs) =
      ocsum (BitVec.ofNat 16 (fold (i.toNat + (256 * b.toNat + c.toNat)))) bs)) ∧
  (∀ bs, checksum bs = ~~~ocsum 0#16 bs)

/-- R101: CSUM over a range inside BUF completes with the checksum in RES0 and the sum in RES1 and changes
nothing else; a range that leaves BUF raises BAD_RANGE. R61, R63: BUF has `2^BUF_BITS` bytes, a range is its bytes in
address order, and a number read from it is big-endian. -/
def Obligations.CsumResult : Prop :=
  encode .csum = 0x00000001#32 ∧
  ∀ s : State,
    (∀ bs, s.argNat 0 + s.argNat 1 ≤ s.cfg.bufSize →
      Memory.readBytes s.buf (s.argNat 0) (s.argNat 1) = some bs →
      exec .csum s = .next
        (((s.setRes 0 ((~~~ocsum (s.argLow 2) bs).setWidth 32)).setRes 1
          ((ocsum (s.argLow 2) bs).setWidth 32)).complete .ok)) ∧
    (s.cfg.bufSize < s.argNat 0 + s.argNat 1 → exec .csum s = .next (s.complete .badRange)) ∧
    s.cfg.bufSize = 2 ^ s.cfg.bufBits ∧
    (∀ a n bs, Memory.readBytes s.buf a n = some bs ↔
      bs.length = n ∧ ∀ k, k < n → Memory.read s.buf (a + k) = bs[k]?) ∧
    (∀ a n, Memory.readNat s.buf a n = (Memory.readBytes s.buf a n).map beNat) ∧
    beNat [] = 0 ∧ ∀ bs b, beNat (bs ++ [b]) = 256 * beNat bs + b.toNat

/-- R102: even pieces chain, an odd first piece does not in general, and a range that holds its own checksum at
an even offset sums to 0xFFFF and has checksum 0. -/
def Obligations.ChecksumChainingAndVerification : Prop :=
  (∀ b1 b2 : List Byte, b1.length % 2 = 0 → ocsum (ocsum 0#16 b1) b2 = ocsum 0#16 (b1 ++ b2)) ∧
  (∃ b1 b2 : List Byte, b1.length % 2 = 1 ∧ ocsum (ocsum 0#16 b1) b2 ≠ ocsum 0#16 (b1 ++ b2)) ∧
  (∀ pre post : List Byte, pre.length % 2 = 0 → post.length % 2 = 0 →
    ocsum 0#16 (pre ++ be16 (checksum (pre ++ [0#8, 0#8] ++ post)) ++ post) = 0xFFFF#16 ∧
    checksum (pre ++ be16 (checksum (pre ++ [0#8, 0#8] ++ post)) ++ post) = 0#16)

/-- R104: CSUM_FIXUP completes from every state with RES0 = `~16 fold(x)` and changes nothing else; its words
are the low halves (W = 0) or both halves, the high one first (W = 1). -/
def Obligations.CsumFixupResult : Prop :=
  encode (.csumFixup false) = 0x00000002#32 ∧ encode (.csumFixup true) = 0x00000102#32 ∧
  (∀ s : State, exec (.csumFixup false) s = .next ((s.setRes 0 ((~~~BitVec.ofNat 16 (fold
      ((~~~s.argLow 0).toNat + (~~~s.argLow 1).toNat + (s.argLow 2).toNat))).setWidth 32)).complete .ok)) ∧
  (∀ s : State, exec (.csumFixup true) s = .next ((s.setRes 0 ((~~~BitVec.ofNat 16 (fold
      ((~~~s.argLow 0).toNat + ((~~~s.argHigh 1).toNat + (~~~s.argLow 1).toNat)
        + ((s.argHigh 2).toNat + (s.argLow 2).toNat)))).setWidth 32)).complete .ok))

/-- R104 (corner cases): an unchanged field returns the checksum, but for 0xFFFF, which returns 0; and a two-word
fixup is two one-word fixups. -/
def Obligations.FixupCornerCases : Prop :=
  (∀ hc o : Half, fixup hc [o] [o] = if hc = 0xFFFF#16 then 0x0000#16 else hc) ∧
  (∀ hc o1 o2 m1 m2 : Half, fixup hc [o1, o2] [m1, m2] = fixup (fixup hc [o1] [m1]) [o2] [m2])

/-- R105: the fixup equals the recomputation over the changed range, unless every byte of it is zero, where the
fixup gives 0x0000 and the recomputation 0xFFFF; and no function of the fixup's three inputs removes the
exception. -/
def Obligations.FixupEqualsRecomputation : Prop :=
  (∀ (pre post : List Byte) (olds news : List Half),
    pre.length % 2 = 0 → olds.length = news.length →
    (∃ x ∈ pre ++ news.flatMap be16 ++ post, x ≠ 0#8) →
    fixup (checksum (pre ++ olds.flatMap be16 ++ post)) olds news =
      checksum (pre ++ news.flatMap be16 ++ post)) ∧
  (∀ (pre post : List Byte) (olds news : List Half),
    pre.length % 2 = 0 → olds.length = news.length → olds ≠ [] →
    (∀ x ∈ pre ++ news.flatMap be16 ++ post, x = 0#8) →
    fixup (checksum (pre ++ olds.flatMap be16 ++ post)) olds news = 0x0000#16 ∧
      checksum (pre ++ news.flatMap be16 ++ post) = 0xFFFF#16) ∧
  (∀ f : Half → Half → Half → Half, ∃ (post : List Byte) (o m : Half),
    f (checksum (be16 o ++ post)) o m ≠ checksum (be16 m ++ post))

/-- R107: CSUM_PSEUDO over a range inside BUF completes with the pseudo-header sum and changes nothing else; a
length above 0xFFFF or a range that leaves BUF raises BAD_RANGE. `pseudoSum` is that sum. -/
def Obligations.CsumPseudoResult : Prop :=
  encode .csumPseudo = 0x00000003#32 ∧
  ∀ s : State,
    (∀ bs, s.argNat 4 ≤ 0xFFFF → s.argNat 3 + s.argNat 4 ≤ s.cfg.bufSize →
      Memory.readBytes s.buf (s.argNat 3) (s.argNat 4) = some bs →
      ∀ sum, sum = ocsum 0#16 (be32 (s.arg 0) ++ be32 (s.arg 1) ++ [0x00#8, s.argByte 2]
          ++ be16 (BitVec.ofNat 16 (s.argNat 4)) ++ bs) →
        exec .csumPseudo s = .next
          (((s.setRes 0 ((~~~sum).setWidth 32)).setRes 1 (sum.setWidth 32)).complete .ok)) ∧
    ((0xFFFF < s.argNat 4 ∨ s.cfg.bufSize < s.argNat 3 + s.argNat 4) →
      exec .csumPseudo s = .next (s.complete .badRange)) ∧
    ∀ src dst proto len bs, pseudoSum src dst proto len bs =
      ocsum 0#16 (be32 src ++ be32 dst ++ [0x00#8, proto] ++ be16 len ++ bs)

/-! ### ARP cache (R120 to R127) -/

/-- R122: ARP_LOOKUP answers with the lowest valid fresh entry of the address, or absent; it changes nothing but
RES0 to RES3. R45: at the 32 bits of R5 an age is `(now - t) mod 2^32`. -/
def Obligations.ArpLookupResult : Prop :=
  encode .arpLookup = 0x00000010#32 ∧
  ∀ s : State,
    (∀ (i : Nat) (e : ArpEntry), s.arp[i]? = some e →
      e.valid = true → e.ip = s.arg 0 → age s.cfg s.now e.tick ≤ s.cfg.arpFresh →
      (∀ (j : Nat) (f : ArpEntry), j < i → s.arp[j]? = some f →
        ¬ (f.valid = true ∧ f.ip = s.arg 0 ∧ age s.cfg s.now f.tick ≤ s.cfg.arpFresh)) →
      exec .arpLookup s = .next
        (((((s.setRes 0 1#32).setRes 1 ((e.mac.extractLsb' 32 16).setWidth 32)).setRes 2
          (e.mac.extractLsb' 0 32)).setRes 3 (BitVec.ofNat 32 i)).complete .ok)) ∧
    ((∀ e ∈ s.arp, ¬ (e.valid = true ∧ e.ip = s.arg 0 ∧ age s.cfg s.now e.tick ≤ s.cfg.arpFresh)) →
      exec .arpLookup s = .next
        (((((s.setRes 0 0#32).setRes 1 0#32).setRes 2 0#32).setRes 3 0xFFFFFFFF#32).complete .ok)) ∧
    ∀ (c : Config) (now t : Word), c.tickBits = 32 →
      (age c now t : Int) = ((now.toNat : Int) - (t.toNat : Int)) % 2 ^ 32

/-- R127: an entry that ARP_LOOKUP answers with is of the address asked for and within the freshness window. -/
def Obligations.ArpLookupNeverAnswersStale : Prop :=
  ∀ s t, NseInv s → exec .arpLookup s = .next t → t.res[0] = 1#32 →
    ∃ e, s.arp[(t.res[3]).toNat]? = some e ∧ e.valid = true ∧ e.ip = s.arg 0 ∧
      age s.cfg s.now e.tick ≤ s.cfg.arpFresh

/-- R123, R124: the five outcomes of ARP_UPDATE, each with the entry written, and nothing else changed. -/
def Obligations.ArpUpdateOutcomes : Prop :=
  encode .arpUpdate = 0x00000011#32 ∧
  ∀ (s : State) (i : Nat) (e : ArpEntry) (on : Prop) (new : ArpEntry),
    (on ↔ s.arg 0 &&& s.latMask = s.latIp &&& s.latMask) →
    new = ⟨true, s.arg 0, s.argLow 1 ++ s.arg 2, s.now⟩ →
    (¬ on → exec .arpUpdate s = .next (((s.setRes 0 3#32).setRes 1 0xFFFFFFFF#32).complete .ok)) ∧
    (on → s.arp[i]? = some e → e.valid = true → e.ip = s.arg 0 →
      (∀ (j : Nat) (f : ArpEntry), j < i → s.arp[j]? = some f → ¬ (f.valid = true ∧ f.ip = s.arg 0)) →
      exec .arpUpdate s = .next
        ((({ s with arp := s.arp.set i new }.setRes 0 0#32).setRes 1 (BitVec.ofNat 32 i)).complete .ok)) ∧
    (on → (∀ f ∈ s.arp, ¬ (f.valid = true ∧ f.ip = s.arg 0)) → s.arp[i]? = some e → e.valid = false →
      (∀ (j : Nat) (f : ArpEntry), j < i → s.arp[j]? = some f → f.valid = true) →
      exec .arpUpdate s = .next
        ((({ s with arp := s.arp.set i new }.setRes 0 1#32).setRes 1 (BitVec.ofNat 32 i)).complete .ok)) ∧
    (on → (∀ f ∈ s.arp, ¬ (f.valid = true ∧ f.ip = s.arg 0)) → (∀ f ∈ s.arp, f.valid = true) →
      s.arp[i]? = some e → s.cfg.arpFresh < age s.cfg s.now e.tick →
      (∀ (j : Nat) (f : ArpEntry), j < i → s.arp[j]? = some f → age s.cfg s.now f.tick ≤ s.cfg.arpFresh) →
      exec .arpUpdate s = .next
        ((({ s with arp := s.arp.set i new }.setRes 0 2#32).setRes 1 (BitVec.ofNat 32 i)).complete .ok)) ∧
    (on → (∀ f ∈ s.arp, ¬ (f.valid = true ∧ f.ip = s.arg 0)) →
      (∀ f ∈ s.arp, f.valid = true ∧ age s.cfg s.now f.tick ≤ s.cfg.arpFresh) →
      exec .arpUpdate s = .next (((s.setRes 0 4#32).setRes 1 0xFFFFFFFF#32).complete .ok))

/-- R125: ARP_READ of an entry gives its six results and changes nothing else; an index of ARP_ENTRIES or more
raises BAD_INDEX. -/
def Obligations.ArpReadResult : Prop :=
  encode .arpRead = 0x00000012#32 ∧
  ∀ s : State, NseInv s →
    (∀ e, s.arp[(s.argByte 0).toNat]? = some e →
      exec .arpRead s = .next
        (((((((s.setRes 0 (bit e.valid)).setRes 1 e.ip).setRes 2 ((e.mac.extractLsb' 32 16).setWidth 32)).setRes 3
          (e.mac.extractLsb' 0 32)).setRes 4 e.tick).setRes 5
            (bit (e.valid && decide (age s.cfg s.now e.tick ≤ s.cfg.arpFresh)))).complete .ok)) ∧
    ((s.argByte 0).toNat < s.cfg.arpEntries → (s.arp[(s.argByte 0).toNat]?).isSome) ∧
    (s.cfg.arpEntries ≤ (s.argByte 0).toNat → exec .arpRead s = .next (s.complete .badIndex))

/-- R126: no step but a reset makes a valid ARP entry invalid. -/
def Obligations.ArpEntriesStayValid : Prop :=
  ∀ (s t : State) (i : Nat) (e : ArpEntry), step s = .next t → s.arp[i]? = some e → e.valid = true →
    (∃ f, t.arp[i]? = some f ∧ f.valid = true) ∨ ∃ ev rest, s.agenda = ev :: rest ∧ resetEvent ev

/-! ### Session table (R33 to R39, R180 to R193) -/

/-- R34: with the tables of the parameters' sizes a selector names an SCB exactly when it is below SESS_ENTRIES
or 0xFF, slot `s` is the one it names, and a command given any other raises BAD_INDEX. -/
def Obligations.SelectorsNameScbs : Prop :=
  ∀ (s : State) (sel : Byte), NseInv s →
    ((s.scb? sel).isSome = true ↔ sel.toNat < s.cfg.sessEntries ∨ sel = 0xFF#8) ∧
    (sel.toNat < s.cfg.sessEntries → s.scb? sel = s.sess[sel.toNat]?) ∧
    s.scb? 0xFF#8 = some s.oscb ∧
    (s.argByte 0).toNat = (s.arg 0).toNat % 256 ∧
    (s.scb? (s.argByte 0) = none →
      ∀ i, (i = .build ∨ i = .reply ∨ i = .sessRead ∨ (∃ stamp, i = .sessWrite stamp) ∨ i = .sessFree) →
        exec i s = .next (s.complete .badIndex))

/-- R33, R35: which field each of the 26 indices names, and no other index names one; the widths; what a read of
each field gives, zero-extended; a field receives the low bits of what is written, as many as it is wide, and no other
field changes. -/
def Obligations.ScbFieldsTruncate : Prop :=
  (List.range 26).map (fun k => ScbField.ofIndex (BitVec.ofNat 8 k)) =
    [.valid, .lip, .rip, .lport, .rport, .seq, .ack, .flags, .rflags, .window, .mtu, .ttl, .ipid, .lastTick,
      .proto, .sockOpen, .txptr, .txlen, .rxptr, .rxlen, .peerMss, .fragOk, .lmacHi, .lmacLo, .rmacHi,
      .rmacLo].map some ∧
  (List.range 26).map (fun k => (ScbField.ofIndex (BitVec.ofNat 8 k)).map ScbField.width) =
    [1, 32, 32, 16, 16, 32, 32, 8, 8, 16, 16, 8, 16, 32, 8, 1, 32, 16, 32, 16, 16, 1, 16, 32, 16, 32].map some ∧
  (∀ k : Byte, 26 ≤ k.toNat → ScbField.ofIndex k = none) ∧
  ∀ (b : Scb) (f : ScbField) (v : Word),
    ((b.put f v).get f).toNat = v.toNat % 2 ^ f.width ∧ (∀ g, g ≠ f → (b.put f v).get g = b.get g) ∧
    b.get .valid = bit b.valid ∧ b.get .lip = b.lip ∧ b.get .rip = b.rip ∧ b.get .lport = b.lport.setWidth 32 ∧
    b.get .rport = b.rport.setWidth 32 ∧ b.get .seq = b.seq ∧ b.get .ack = b.ack ∧
    b.get .flags = b.flags.setWidth 32 ∧ b.get .rflags = b.rflags.setWidth 32 ∧
    b.get .window = b.window.setWidth 32 ∧ b.get .mtu = b.mtu.setWidth 32 ∧ b.get .ttl = b.ttl.setWidth 32 ∧
    b.get .ipid = b.ipid.setWidth 32 ∧ b.get .lastTick = b.lastTick ∧ b.get .proto = b.proto.setWidth 32 ∧
    b.get .sockOpen = bit b.sockOpen ∧ b.get .txptr = b.txptr ∧ b.get .txlen = b.txlen.setWidth 32 ∧
    b.get .rxptr = b.rxptr ∧ b.get .rxlen = b.rxlen.setWidth 32 ∧ b.get .peerMss = b.peerMss.setWidth 32 ∧
    b.get .fragOk = bit b.fragOk ∧ b.get .lmacHi = b.lmacHi.setWidth 32 ∧ b.get .lmacLo = b.lmacLo ∧
    b.get .rmacHi = b.rmacHi.setWidth 32 ∧ b.get .rmacLo = b.rmacLo

/-- R183, R184, R185: SESS_FIND. HIT changes nothing but RES0 and RES1; a non-SYN that finds nothing is NONE; a
SYN that finds nothing fills the lowest free slot with zero but VALID, the tuple, the initial sequence number
and the tick; in every case the lowest index wins. -/
def Obligations.SessFindResult : Prop :=
  encode (.sessFind false) = 0x00000030#32 ∧ encode (.sessFind true) = 0x00000130#32 ∧
  ∀ (s : State) (syn : Bool) (i : Nat) (b : Scb) (live hits : Scb → Prop),
    (∀ d, live d ↔ d.valid = true ∧ age s.cfg s.now d.lastTick ≤ s.cfg.sessTimeout) →
    (∀ d, hits d ↔ live d ∧ d.rip = s.arg 0 ∧ d.lip = s.arg 1 ∧ d.rport = s.argHigh 2 ∧
      d.lport = s.argLow 2) →
    (s.sess[i]? = some b → hits b → (∀ (j : Nat) (d : Scb), j < i → s.sess[j]? = some d → ¬ hits d) →
      exec (.sessFind syn) s = .next (((s.setRes 0 (BitVec.ofNat 32 i)).setRes 1 0#32).complete .ok)) ∧
    ((∀ d ∈ s.sess, ¬ hits d) →
      exec (.sessFind false) s = .next (((s.setRes 0 0xFFFFFFFF#32).setRes 1 2#32).complete .ok)) ∧
    ((∀ d ∈ s.sess, ¬ hits d) → s.sess[i]? = some b → ¬ live b →
      (∀ (j : Nat) (d : Scb), j < i → s.sess[j]? = some d → live d) →
      ∃ t, exec (.sessFind true) s = .next t ∧
        t = ((({ s with
          isnInputs := t.isnInputs, isnDraws := t.isnDraws,
          sess := s.sess.set i { Scb.zero with
            valid := true, rip := s.arg 0, lip := s.arg 1, rport := s.argHigh 2, lport := s.argLow 2,
            seq := s.isn, lastTick := s.now } }.setRes 0 (BitVec.ofNat 32 i)).setRes 1 1#32).complete .ok) ∧
        (∀ v rest, s.isnInputs = v :: rest → s.isn = v ∧ t.isnInputs = rest ∧ t.isnDraws = s.isnDraws) ∧
        (s.isnInputs = [] → t.isnInputs = [] ∧ t.isnDraws = s.isnDraws + 1))

/-- R226: a SYN with no live match and no free slot raises TABLE_FULL, writes RES0 = 0xFFFFFFFF and RES1 = 2, and
changes nothing else. -/
def Obligations.TableFullWritesTwoResults : Prop :=
  ∀ s : State,
    (∀ d ∈ s.sess, d.valid = true ∧ age s.cfg s.now d.lastTick ≤ s.cfg.sessTimeout ∧
      ¬ (d.rip = s.arg 0 ∧ d.lip = s.arg 1 ∧ d.rport = s.argHigh 2 ∧ d.lport = s.argLow 2)) →
    exec (.sessFind true) s = .next
      (((s.setRes 0 0xFFFFFFFF#32).setRes 1 2#32).complete .tableFull)

/-- R39, R191: the OSCB is outside the scan: SESS_FIND does not read it, write it or answer 0xFF. -/
def Obligations.OscbIsOutsideTheScan : Prop :=
  ∀ (s : State) (syn : Bool) (b : Scb),
    exec (.sessFind syn) { s with oscb := b } =
      mapNext (fun t => { t with oscb := b }) (exec (.sessFind syn) s) ∧
    (∀ t, NseInv s → exec (.sessFind syn) s = .next t → t.oscb = s.oscb ∧ t.res[0] ≠ 0xFF#32)

/-- R187: SESS_READ gives a field zero-extended, or LIVE, and changes nothing else; a field index above 0x1A
raises BAD_FIELD. -/
def Obligations.SessReadResult : Prop :=
  encode .sessRead = 0x00000031#32 ∧
  ∀ (s : State) (b : Scb), s.scb? (s.argByte 0) = some b →
    (∀ f, ScbField.ofIndex (s.argByte 1) = some f →
      exec .sessRead s = .next ((s.setRes 0 (b.get f)).complete .ok)) ∧
    (s.argByte 1 = 0x1A#8 → s.argByte 0 = 0xFF#8 →
      exec .sessRead s = .next ((s.setRes 0 (bit b.valid)).complete .ok)) ∧
    (s.argByte 1 = 0x1A#8 → s.argByte 0 ≠ 0xFF#8 →
      exec .sessRead s = .next ((s.setRes 0
        (bit (b.valid && decide (age s.cfg s.now b.lastTick ≤ s.cfg.sessTimeout)))).complete .ok)) ∧
    (0x1A < (s.argByte 1).toNat → exec .sessRead s = .next (s.complete .badField))

/-- R188: SESS_WRITE puts the value in the field, then with T = 1 stamps LAST_TICK; the selected SCB is all that
changes; LIVE and indices above it raise BAD_FIELD. -/
def Obligations.SessWriteResult : Prop :=
  encode (.sessWrite false) = 0x00000032#32 ∧ encode (.sessWrite true) = 0x00000132#32 ∧
  ∀ (s : State) (b : Scb) (stamp : Bool), s.scb? (s.argByte 0) = some b →
    (∀ f, ScbField.ofIndex (s.argByte 1) = some f → ∀ d,
      d = (if stamp = true then { b.put f (s.arg 2) with lastTick := s.now } else b.put f (s.arg 2)) →
      (s.argByte 0 = 0xFF#8 →
        exec (.sessWrite stamp) s = .next ({ s with oscb := d }.complete .ok)) ∧
      (s.argByte 0 ≠ 0xFF#8 →
        exec (.sessWrite stamp) s = .next ({ s with sess := s.sess.set (s.argByte 0).toNat d }.complete .ok))) ∧
    (0x1A ≤ (s.argByte 1).toNat → exec (.sessWrite stamp) s = .next (s.complete .badField))

/-- R189: SESS_FREE zeroes the selected SCB, which is then live at no tick, and changes nothing else. -/
def Obligations.SessFreeResult : Prop :=
  encode .sessFree = 0x00000033#32 ∧
  ∀ (s : State) (b : Scb), s.scb? (s.argByte 0) = some b →
    (s.argByte 0 = 0xFF#8 → exec .sessFree s = .next ({ s with oscb := Scb.zero }.complete .ok)) ∧
    (s.argByte 0 ≠ 0xFF#8 →
      exec .sessFree s = .next ({ s with sess := s.sess.set (s.argByte 0).toNat Scb.zero }.complete .ok)) ∧
    ∀ t, exec .sessFree s = .next t →
      t.scb? (s.argByte 0) = some Scb.zero ∧ ∀ c now, Scb.zero.live c now = false

/-- R37, R190, I10: a command that does not set a key field of an inbound slot by SESS_WRITE keeps, at its tick,
at most one live slot for a 4-tuple; the passing of ticks keeps it while no valid slot's age reaches `2^TICK_BITS`,
which is 2^32 at the 32 bits of R5 (widths below 32 are the model's choice, log entry 4). R181, R45: an SCB is live when
VALID and not older than SESS_TIMEOUT, the age modulo `2^TICK_BITS`. -/
def Obligations.SessionsStayUnique : Prop :=
  (∀ i s t, sessUnique s.cfg s.now s.sess → ¬ setsSessionKey i s → exec i s = .next t →
    sessUnique t.cfg t.now t.sess) ∧
  (∀ (c : Config) (now d : Word) (l : List Scb), c.legal = true → sessUnique c now l →
    (∀ b ∈ l, b.valid = true → age c now b.lastTick + d.toNat < 2 ^ c.tickBits) →
    sessUnique c (tickValue c (now + d)) l) ∧
  (∀ (c : Config) (now t : Word), (tickValue c t).toNat = t.toNat % 2 ^ c.tickBits ∧
    (c.tickBits ≤ 32 → (age c now t : Int) = ((now.toNat : Int) - (t.toNat : Int)) % 2 ^ c.tickBits)) ∧
  (∀ (c : Config) (now : Word) (b : Scb) (t : Tuple),
    (b.live c now = true ↔ b.valid = true ∧ age c now b.lastTick ≤ c.sessTimeout) ∧
    (b.hasTuple t = true ↔ b.rip = t.sip ∧ b.lip = t.dip ∧ b.rport = t.sport ∧ b.lport = t.dport))

/-! ### Packet builder (R140 to R160) -/

/-- R154, R157, R158: BUILD of a known protocol, inside BUF and within the capacity, completes: it writes the
frame at ARG1 and no other byte, advances IPID, and reports the lengths, the MTU and FRAG_NEEDED (1 when MTU is not 0
and below the total length, whatever FRAG_OK is). The frame goes from LMAC, LIP and LPORT to RMAC, RIP and RPORT. -/
def Obligations.BuildWritesFrame : Prop :=
  encode .build = 0x00000020#32 ∧
  ∀ (s : State) (b : Scb) (p : Proto) (payload : List Byte),
    s.scb? (s.argByte 0) = some b → Proto.ofNumber b.proto = some p →
    s.argNat 1 + s.argNat 2 ≤ s.cfg.bufSize →
    (b.txptr = 0#32 ∨ b.txptr.toNat + payloadLen p b ≤ s.cfg.bufSize) → totalLen p b ≤ 0xFFFF →
    frameLen p b ≤ s.argNat 2 → payloadBytes s.buf p b = some payload →
    ∃ t f, exec .build s = .next t ∧ f = frameBytes s.cfg s.now p b b.ends payload ∧
      FrameSent s t (s.argByte 0) p b (s.argNat 1) f ∧
      slice f 0 12 = be48 (b.rmacHi ++ b.rmacLo) ++ be48 (b.lmacHi ++ b.lmacLo) ∧
      slice f 26 8 = be32 b.lip ++ be32 b.rip ∧
      (p ≠ .icmp → slice f 34 4 = be16 b.lport ++ be16 b.rport)

/-- R155: REPLY to a TCP frame inside BUF, with room for the reply, completes: it writes a TCP frame with the
inbound frame's addresses and ports swapped, all read before the first write, and does else what BUILD does. -/
def Obligations.ReplyWritesSwappedFrame : Prop :=
  encode .reply = 0x00000021#32 ∧
  ∀ (s : State) (b : Scb) (f payload : List Byte) (ihl : Nat),
    s.scb? (s.argByte 0) = some b →
    s.argNat 1 + s.argNat 2 ≤ s.cfg.bufSize → s.argNat 3 + s.argNat 4 ≤ s.cfg.bufSize →
    (b.txptr = 0#32 ∨ b.txptr.toNat + payloadLen .tcp b ≤ s.cfg.bufSize) → totalLen .tcp b ≤ 0xFFFF →
    Memory.readBytes s.buf (s.argNat 1) (s.argNat 2) = some f → tcpFrame f ihl →
    frameLen .tcp b ≤ s.argNat 4 → payloadBytes s.buf .tcp b = some payload →
    ∃ t, exec .reply s = .next t ∧
      FrameSent s t (s.argByte 0) .tcp b (s.argNat 3)
        (frameBytes s.cfg s.now .tcp b (swappedEnds f ihl) payload)

/-- R159: the order of BUILD's checks: the first that fails decides the error. R154, R222: PROTO 1 is ICMP, 6 TCP, 17
UDP, and no other number is a protocol. -/
def Obligations.BuildCheckOrder : Prop :=
  (∀ n : Byte, (Proto.ofNumber n = some .icmp ↔ n = 1#8) ∧ (Proto.ofNumber n = some .tcp ↔ n = 6#8) ∧
    (Proto.ofNumber n = some .udp ↔ n = 17#8) ∧ ∀ p : Proto, Proto.ofNumber n = some p ↔ p.number = n) ∧
  ∀ s : State,
    (s.scb? (s.argByte 0) = none → exec .build s = .next (s.complete .badIndex)) ∧
    (∀ b, s.scb? (s.argByte 0) = some b →
      (Proto.ofNumber b.proto = none → exec .build s = .next (s.complete .badProto)) ∧
      (∀ p, Proto.ofNumber b.proto = some p → ∀ outside : Prop,
        (outside ↔ s.cfg.bufSize < s.argNat 1 + s.argNat 2 ∨
          (b.txptr ≠ 0#32 ∧ s.cfg.bufSize < b.txptr.toNat + payloadLen p b) ∨ 0xFFFF < totalLen p b) →
        (outside → exec .build s = .next (s.complete .badRange)) ∧
        (¬ outside → s.argNat 2 < frameLen p b → exec .build s = .next (s.complete .allocFail))))

/-- R155, R159: the order of REPLY's checks, for an inbound region all of whose bytes were written. -/
def Obligations.ReplyCheckOrder : Prop :=
  ∀ s : State,
    (s.scb? (s.argByte 0) = none → exec .reply s = .next (s.complete .badIndex)) ∧
    (∀ b, s.scb? (s.argByte 0) = some b → ∀ outside : Prop,
      (outside ↔ s.cfg.bufSize < s.argNat 1 + s.argNat 2 ∨ s.cfg.bufSize < s.argNat 3 + s.argNat 4 ∨
        (b.txptr ≠ 0#32 ∧ s.cfg.bufSize < b.txptr.toNat + payloadLen .tcp b) ∨ 0xFFFF < totalLen .tcp b) →
      (outside → exec .reply s = .next (s.complete .badRange)) ∧
      (∀ f, ¬ outside → Memory.readBytes s.buf (s.argNat 1) (s.argNat 2) = some f →
        ((∀ ihl, ¬ tcpFrame f ihl) → exec .reply s = .next (s.complete .badPacket)) ∧
        (∀ ihl, tcpFrame f ihl → s.argNat 4 < frameLen .tcp b →
          exec .reply s = .next (s.complete .allocFail))))

/-- R64: numbers stand in a frame most significant byte first. R140, R141, R142, R147, R148, R150, R152: a frame's
length and its parts, with SYN at bit 1 of FLAGS; the Ethernet and IPv4 headers of every frame, field by
field at their offsets, the header checksum over the header's own other bytes; the TCP option bytes of a SYN and of every
other segment. -/
def Obligations.FrameLayout : Prop :=
  (∀ c now p b e (payload f : List Byte), f = frameBytes c now p b e payload →
    (payload.length = payloadLen p b → f.length = 14 + 20 + headerLen p b + payloadLen p b) ∧
    slice f 0 6 = be48 e.dmac ∧ slice f 6 6 = be48 e.smac ∧ slice f 12 2 = [0x08#8, 0x00#8] ∧
    slice f 14 2 = [0x45#8, 0x00#8] ∧ slice f 16 2 = be16 (BitVec.ofNat 16 (totalLen p b)) ∧
    slice f 18 2 = be16 b.ipid ∧
    slice f 20 2 = (if b.fragOk then [0x00#8, 0x00#8] else [0x40#8, 0x00#8]) ∧
    slice f 22 2 = [b.ttl, p.number] ∧
    slice f 24 2 = be16 (checksum (slice f 14 10 ++ [0x00#8, 0x00#8] ++ slice f 26 8)) ∧
    slice f 26 4 = be32 e.sip ∧ slice f 30 4 = be32 e.dip) ∧
  (∀ c now b,
    (isSyn b.flags = true → tcpOptions c now b =
      [0x02#8, 0x04#8] ++ be16 c.mssValue ++ [0x01#8, 0x01#8, 0x08#8, 0x0A#8] ++ be32 now
        ++ [0#8, 0#8, 0#8, 0#8] ++ [0x01#8, 0x03#8, 0x03#8, c.wscale] ∧ (tcpOptions c now b).length = 20) ∧
    (isSyn b.flags = false → tcpOptions c now b =
      [0x01#8, 0x01#8, 0x08#8, 0x0A#8] ++ be32 now ++ [0#8, 0#8, 0#8, 0#8] ∧
        (tcpOptions c now b).length = 12)) ∧
  (∀ p b, headerLen .icmp b = 8 ∧ headerLen .udp b = 8 ∧
    headerLen .tcp b = (if b.flags.getLsbD 1 then 40 else 32) ∧ isSyn b.flags = b.flags.getLsbD 1 ∧
    totalLen p b = 20 + headerLen p b + payloadLen p b ∧ frameLen p b = 14 + totalLen p b) ∧
  (∀ (h : Half) (w : Word) (m : Mac),
    ((be16 h).length = 2 ∧ beNat (be16 h) = h.toNat) ∧ ((be32 w).length = 4 ∧ beNat (be32 w) = w.toNat) ∧
    (be48 m).length = 6 ∧ beNat (be48 m) = m.toNat)

/-- R143, R144, R145, R146, R149: the transport header of every frame, field by field at its offset, its checksum
field included, and the payload after it: ICMP echo, UDP, TCP with its options. R153: what each checksum field holds,
and the substitution of UDP_ZERO_SUBST. -/
def Obligations.TransportLayout : Prop :=
  ∀ (c : Config) (now : Word) (b : Scb) (e : Ends) (payload f : List Byte),
    (f = frameBytes c now .icmp b e payload →
      slice f 34 2 = [0x08#8, 0x00#8] ∧ slice f 36 2 = be16 (transportChecksum c now .icmp b e payload) ∧
      slice f 38 2 = be16 b.lport ∧ slice f 40 2 = be16 (b.seq.extractLsb' 0 16) ∧ f.drop 42 = payload) ∧
    (f = frameBytes c now .udp b e payload →
      slice f 34 2 = be16 e.sport ∧ slice f 36 2 = be16 e.dport ∧
      slice f 38 2 = be16 (BitVec.ofNat 16 (8 + payloadLen .udp b)) ∧
      slice f 40 2 = be16 (transportChecksum c now .udp b e payload) ∧ f.drop 42 = payload) ∧
    (f = frameBytes c now .tcp b e payload →
      slice f 34 2 = be16 e.sport ∧ slice f 36 2 = be16 e.dport ∧ slice f 38 4 = be32 b.seq ∧
      slice f 42 4 = be32 b.ack ∧
      slice f 46 2 = [if b.flags.getLsbD 1 then 0xA0#8 else 0x80#8, b.flags] ∧
      slice f 48 2 = be16 b.window ∧ slice f 50 2 = be16 (transportChecksum c now .tcp b e payload) ∧
      slice f 52 2 = [0x00#8, 0x00#8] ∧
      f.drop 54 = tcpOptions c now b ++ payload) ∧
    transportChecksum c now .icmp b e payload = ~~~ocsum 0#16 (icmpHeader b 0#16 ++ payload) ∧
    transportChecksum c now .tcp b e payload =
      ~~~pseudoSum e.sip e.dip 6#8 (BitVec.ofNat 16 (headerLen .tcp b + payloadLen .tcp b))
        (tcpHeader c now b e 0#16 ++ payload) ∧
    (∀ ck : Half, ck = ~~~pseudoSum e.sip e.dip 17#8 (BitVec.ofNat 16 (8 + payloadLen .udp b))
        (udpHeader b e 0#16 ++ payload) →
      (ck ≠ 0x0000#16 ∨ c.udpZeroSubst = false → transportChecksum c now .udp b e payload = ck) ∧
      (ck = 0x0000#16 → c.udpZeroSubst = true → transportChecksum c now .udp b e payload = 0xFFFF#16))

/-- R149: the payload length is TXLEN, clamped to a known PEER_MSS for TCP alone, and the filler byte `k` is
`k mod 256`; with TXPTR not 0 the payload is the bytes of BUF from TXPTR. -/
def Obligations.PayloadClampAndFiller : Prop :=
  (∀ b, payloadLen .icmp b = b.txlen.toNat ∧ payloadLen .udp b = b.txlen.toNat ∧
    (b.peerMss = 0#16 → payloadLen .tcp b = b.txlen.toNat) ∧
    (b.peerMss ≠ 0#16 → payloadLen .tcp b = min b.txlen.toNat b.peerMss.toNat)) ∧
  (∀ m p b, b.txptr = 0#32 → ∃ bs, payloadBytes m p b = some bs ∧ bs.length = payloadLen p b ∧
    ∀ k, k < payloadLen p b → bs[k]? = some (BitVec.ofNat 8 (k % 256))) ∧
  (∀ m p b, b.txptr ≠ 0#32 → (∀ k, k < payloadLen p b → (Memory.read m (b.txptr.toNat + k)).isSome = true) →
    ∃ bs, payloadBytes m p b = some bs ∧ bs.length = payloadLen p b ∧
      ∀ k, k < payloadLen p b → bs[k]? = Memory.read m (b.txptr.toNat + k))

/-- R102, R152: in every frame that BUILD or REPLY writes, the IPv4 header as it stands in BUF sums to 0xFFFF: a
CSUM over it verifies. -/
def Obligations.WrittenIpHeaderVerifies : Prop :=
  ∀ i s t, (i = .build ∨ i = .reply) → exec i s = .next t → t.err = .ok →
    ∃ o h, (i = .build → o = s.argNat 1) ∧ (i = .reply → o = s.argNat 3) ∧
      Memory.readBytes t.buf (o + 14) 20 = some h ∧ ocsum 0#16 h = 0xFFFF#16 ∧ checksum h = 0x0000#16

/-- R102, R107, R153, R155: in every frame that BUILD or REPLY writes, the transport part as it stands in BUF verifies:
with the pseudo-header for TCP and UDP (REPLY's with the inbound frame's addresses swapped), alone for ICMP. With
UDP_ZERO_SUBST the checksum field of a UDP frame is never 0x0000. -/
def Obligations.WrittenTransportVerifies : Prop :=
  (∀ (s t : State) (b : Scb) (p : Proto), s.scb? (s.argByte 0) = some b → Proto.ofNumber b.proto = some p →
    exec .build s = .next t → t.err = .ok →
    ∃ bs, Memory.readBytes t.buf (s.argNat 1 + 34) (headerLen p b + payloadLen p b) = some bs ∧
      (p = .icmp → checksum bs = 0x0000#16) ∧
      (p ≠ .icmp →
        pseudoSum b.lip b.rip b.proto (BitVec.ofNat 16 (headerLen p b + payloadLen p b)) bs = 0xFFFF#16) ∧
      (p = .udp → s.cfg.udpZeroSubst = true → slice bs 6 2 ≠ [0x00#8, 0x00#8])) ∧
  (∀ (s t : State) (b : Scb), s.scb? (s.argByte 0) = some b → exec .reply s = .next t → t.err = .ok →
    ∃ (bs : List Byte) (dst src : Nat),
      Memory.readBytes t.buf (s.argNat 3 + 34) (headerLen .tcp b + payloadLen .tcp b) = some bs ∧
      Memory.readNat s.buf (s.argNat 1 + 30) 4 = some dst ∧ Memory.readNat s.buf (s.argNat 1 + 26) 4 = some src ∧
      pseudoSum (BitVec.ofNat 32 dst) (BitVec.ofNat 32 src) 6#8
        (BitVec.ofNat 16 (headerLen .tcp b + payloadLen .tcp b)) bs = 0xFFFF#16)

/-- R156, R160: BUILD and REPLY change no SCB field but the selected SCB's IPID, which advances by 1 when they end
without error; and VALID and LAST_TICK of the selected SCB make no difference: with other values there they do the
same, to the last field, and leave those values. -/
def Obligations.BuilderIgnoresLivenessAndChangesOnlyIpid : Prop :=
  ∀ i s, (i = .build ∨ i = .reply) →
    (∀ t sel b, exec i s = .next t → s.scb? sel = some b →
      t.scb? sel = some { b with
        ipid := if sel = s.argByte 0 ∧ t.err = .ok then b.ipid + 1#16 else b.ipid }) ∧
    (∀ v l, exec i (withLiveness (s.argByte 0) v l s) = mapNext (withLiveness (s.argByte 0) v l) (exec i s))

/-! ### The machine as a whole -/

/-- The invariant of the machine is kept by every step from every state that has it: the tables keep their
sizes, BUF its canonical form inside BUF_SIZE, `pending` is BUSY, BUSY excludes DONE and an error, the latched
word is CMD, no two valid ARP entries hold one address, and the tick input and the sampled tick fit TICK_BITS (R22,
R33, R40, R41, R42, R44, R61, R221). No step changes the parameters (R5). -/
def Obligations.StepKeepsInvariant : Prop :=
  ∀ s t, step s = .next t → t.cfg = s.cfg ∧ (NseInv s → NseInv t)

/-- Power-on reset with any legal parameters has the invariant, and so has this hardware's reset state. -/
def Obligations.ResetHasInvariant : Prop :=
  NseInv State.reset ∧ ∀ c : Config, c.legal = true → NseInv (State.resetWith c)

/-- R264, in the model's form of fairness (log entries 1 and 2): an accepted command is executed. With the agenda
holding only ticks, register reads and ARG writes before the engine's turn, the run reaches the command's execution
with the operands latched at acceptance. -/
def Obligations.PendingCommandReachesExecution : Prop :=
  ∀ (s : State) (i : Instr), s.pending = true → decode s.latCmd = .ok i →
    (∀ e ∈ s.agenda, e = .tick ∨ (∃ off, off % 4 = 0 ∧ off < 256 ∧ e = .host (.regRead 4 off)) ∨
      ∃ (k : Fin 8) (v : Word), e = .host (.regWrite 4 (0x20 + 4 * k.val) v)) →
    ∃ args tick data, core.run (s.agenda.length + 1) s =
      (exec i { s with args := args, tick := tick, hostData := data, agenda := [] } : Answer)
end

