-- ==== Sys2Proof/Laws/Checksum.lean ====
section
/-! SUPPORT. How byte strings split into 16-bit words (spec R8, R64). -/

namespace Sys2Proof.Machine

open Sys2Proof

/-- The sum of two lists of words is the sum of their sums. -/
theorem sumWords_append (a b : List Half) : sumWords (a ++ b) = sumWords a + sumWords b := by
  induction a with
  | nil => simp [sumWords]
  | cons x a ih => simp only [List.cons_append, sumWords, ih]; omega

/-- An even piece splits off its words. -/
theorem words_append : ∀ (a b : List Byte), a.length % 2 = 0 → words (a ++ b) = words a ++ words b
  | [], _, _ => rfl
  | [_], _, h => by simp at h
  | x :: y :: a, b, h => by
    simp only [List.cons_append, words, List.cons.injEq, true_and]
    exact words_append a b (by simp only [List.length_cons] at h; omega)

/-- A word is 256 times its high byte plus its low byte. -/
theorem append_byte_toNat (x y : Byte) : (x ++ y : Half).toNat = 256 * x.toNat + y.toNat := by
  refine (BitVec.toNat_append x y).trans ?_
  rw [← Nat.shiftLeft_add_eq_or_of_lt y.isLt, Nat.shiftLeft_eq]
  omega

/-- A word is its two bytes. -/
theorem be16_join (v : Half) : ((v.extractLsb' 8 8 : Byte) ++ (v.extractLsb' 0 8 : Byte) : Half) = v := by
  apply BitVec.eq_of_toNat_eq
  rw [append_byte_toNat]
  simp only [BitVec.extractLsb'_toNat, Nat.shiftRight_eq_div_pow]
  have := v.isLt
  omega

/-- The bytes of a word pair to that word. -/
@[simp] theorem words_be16 (v : Half) : words (be16 v) = [v] := by simp [be16, words, be16_join]

/-- The bytes of a list of words pair to those words. -/
@[simp] theorem words_flatMap_be16 (l : List Half) : words (l.flatMap be16) = l := by
  induction l with
  | nil => rfl
  | cons a l ih => rw [List.flatMap_cons, words_append _ _ (by simp [be16]), ih, words_be16]; rfl

@[simp] theorem be16_length (v : Half) : (be16 v).length = 2 := rfl

@[simp] theorem be32_length (v : Word) : (be32 v).length = 4 := rfl

@[simp] theorem be48_length (v : Mac) : (be48 v).length = 6 := rfl

@[simp] theorem flatMap_be16_length (l : List Half) : (l.flatMap be16).length = 2 * l.length := by
  induction l with
  | nil => rfl
  | cons a l ih => rw [List.flatMap_cons, List.length_append, ih, be16_length, List.length_cons]; omega

end Sys2Proof.Machine
end

