-- ==== Sys2Proof/Laws/Memory.lean ====
section
/-! SUPPORT. The laws of BUF (spec R61 to R63): what a read answers after a write, and that every operation keeps the
canonical form. -/

namespace Sys2Proof.Machine

open Sys2Proof

/-- A read of the byte just written gives it. -/
@[simp] theorem read_write_same (m : List Host.Cell) (a : Nat) (b : Byte) :
    Memory.read (Memory.write m a b) a = some b := by
  induction m with
  | nil => simp [Memory.write, Memory.read]
  | cons c m ih =>
    obtain ⟨k, v⟩ := c
    simp only [Memory.write]
    split
    · simp [Memory.read]
    · split
      · simp [Memory.read]
      · simp only [Memory.read]
        rw [if_neg (by omega)]
        exact ih

/-- A write leaves every other byte alone. -/
theorem read_write_other (m : List Host.Cell) (a x : Nat) (b : Byte) (h : x ≠ a) :
    Memory.read (Memory.write m a b) x = Memory.read m x := by
  induction m with
  | nil => simp [Memory.write, Memory.read, Ne.symm h]
  | cons c m ih =>
    obtain ⟨k, v⟩ := c
    simp only [Memory.write]
    split
    · simp [Memory.read, Ne.symm h]
    · split
      · subst_vars; simp [Memory.read, Ne.symm h]
      · simp only [Memory.read, ih]

/-- A read outside a written byte string is unchanged. -/
theorem read_writeBytes_outside (bs : List Byte) :
    ∀ (m : List Host.Cell) (a x : Nat), (x < a ∨ a + bs.length ≤ x) →
      Memory.read (Memory.writeBytes m a bs) x = Memory.read m x := by
  induction bs with
  | nil => intro m a x _; rfl
  | cons b bs ih =>
    intro m a x h
    simp only [List.length_cons] at h
    simp only [Memory.writeBytes]
    rw [ih _ _ _ (by omega), read_write_other _ _ _ _ (by omega)]

/-- A read inside a written byte string gives its byte. -/
theorem read_writeBytes_inside (bs : List Byte) :
    ∀ (m : List Host.Cell) (a k : Nat), k < bs.length →
      Memory.read (Memory.writeBytes m a bs) (a + k) = bs[k]? := by
  induction bs with
  | nil => intro m a k h; simp at h
  | cons b bs ih =>
    intro m a k h
    simp only [List.length_cons] at h
    simp only [Memory.writeBytes]
    cases k with
    | zero =>
      rw [read_writeBytes_outside _ _ _ _ (by omega)]
      simp
    | succ k =>
      have e : a + (k + 1) = a + 1 + k := by omega
      rw [e, ih _ _ _ (by omega)]
      simp

/-- A range reads as a byte string exactly when each of its bytes does. -/
theorem readBytes_eq_some (m : List Host.Cell) :
    ∀ (n a : Nat) (bs : List Byte), Memory.readBytes m a n = some bs ↔
      bs.length = n ∧ ∀ k, k < n → Memory.read m (a + k) = bs[k]? := by
  intro n
  induction n with
  | zero =>
    intro a bs
    simp only [Memory.readBytes, Option.some.injEq]
    constructor
    · rintro rfl; simp
    · rintro ⟨h, _⟩; exact (List.length_eq_zero_iff.mp h).symm
  | succ n ih =>
    intro a bs
    constructor
    · intro h
      simp only [Memory.readBytes] at h
      split at h
      · rename_i b cs hb hcs
        obtain rfl : b :: cs = bs := by simpa using h
        obtain ⟨hl, hr⟩ := (ih _ _).mp hcs
        refine ⟨by simp [hl], fun k hk => ?_⟩
        cases k with
        | zero => simpa using hb
        | succ k =>
          have e : a + (k + 1) = a + 1 + k := by omega
          rw [e, hr k (by omega)]; simp
      · cases h
    · rintro ⟨hl, hr⟩
      cases bs with
      | nil => simp at hl
      | cons b cs =>
        have hb : Memory.read m a = some b := by simpa using hr 0 (by omega)
        have hcs : Memory.readBytes m (a + 1) n = some cs := by
          refine (ih _ _).mpr ⟨by simpa using hl, fun k hk => ?_⟩
          have e : a + 1 + k = a + (k + 1) := by omega
          rw [e, hr (k + 1) (by omega)]; simp
        simp only [Memory.readBytes, hb, hcs]

/-- A byte string read back has the length asked for. -/
theorem readBytes_length {m : List Host.Cell} {a n : Nat} {bs : List Byte}
    (h : Memory.readBytes m a n = some bs) : bs.length = n :=
  ((readBytes_eq_some m n a bs).mp h).1

/-- A range every byte of which was written reads as some byte string. -/
theorem readBytes_isSome {m : List Host.Cell} {n : Nat} :
    ∀ {a : Nat}, (∀ k, k < n → (Memory.read m (a + k)).isSome) → ∃ bs, Memory.readBytes m a n = some bs := by
  induction n with
  | zero => intro a _; exact ⟨[], rfl⟩
  | succ n ih =>
    intro a h
    obtain ⟨b, hb⟩ := Option.isSome_iff_exists.mp (by simpa using h 0 (by omega))
    obtain ⟨cs, hcs⟩ := ih (a := a + 1) (fun k hk => by
      have e : a + 1 + k = a + (k + 1) := by omega
      rw [e]; exact h (k + 1) (by omega))
    exact ⟨b :: cs, by simp only [Memory.readBytes, hb, hcs]⟩

/-- A written byte string reads back. -/
theorem readBytes_writeBytes_part (m : List Host.Cell) (a : Nat) (pre mid post : List Byte) :
    Memory.readBytes (Memory.writeBytes m a (pre ++ mid ++ post)) (a + pre.length) mid.length = some mid := by
  refine (readBytes_eq_some _ _ _ _).mpr ⟨rfl, fun k hk => ?_⟩
  rw [Nat.add_assoc, read_writeBytes_inside _ _ _ _ (by simp; omega)]
  rw [List.append_assoc, List.getElem?_append_right (by omega), List.getElem?_append_left (by omega)]
  congr 1; omega

/-- A range that does not meet the written one reads as before. -/
theorem readBytes_writeBytes_outside (m : List Host.Cell) (a x n : Nat) (bs : List Byte)
    (h : x + n ≤ a ∨ a + bs.length ≤ x) :
    Memory.readBytes (Memory.writeBytes m a bs) x n = Memory.readBytes m x n := by
  induction n generalizing x with
  | zero => rfl
  | succ n ih =>
    simp only [Memory.readBytes]
    rw [read_writeBytes_outside _ _ _ _ (by omega), ih _ (by omega)]

/-- Every address of a written memory is the written one or an old one. -/
theorem mem_write {m : List Host.Cell} {a : Nat} {b : Byte} {c : Host.Cell}
    (h : c ∈ Memory.write m a b) : c = (a, b) ∨ c ∈ m := by
  induction m with
  | nil => simpa [Memory.write] using h
  | cons d m ih =>
    obtain ⟨k, v⟩ := d
    simp only [Memory.write] at h
    split at h
    · simpa using h
    · split at h
      · rcases List.mem_cons.mp h with h | h
        · exact .inl h
        · exact .inr (List.mem_cons_of_mem _ h)
      · rcases List.mem_cons.mp h with h | h
        · exact .inr (by simp [h])
        · rcases ih h with h | h
          · exact .inl h
          · exact .inr (List.mem_cons_of_mem _ h)

/-- A write keeps the addresses strictly rising. -/
theorem write_sorted {m : List Host.Cell} (a : Nat) (b : Byte) (h : Memory.sorted m = true) :
    Memory.sorted (Memory.write m a b) = true := by
  induction m with
  | nil => rfl
  | cons c m ih =>
    obtain ⟨k, v⟩ := c
    simp only [Memory.sorted, Bool.and_eq_true, List.all_eq_true, decide_eq_true_eq] at h
    simp only [Memory.write]
    split
    · rename_i hk
      simp only [Memory.sorted, Bool.and_eq_true, List.all_eq_true, decide_eq_true_eq, List.mem_cons]
      refine ⟨?_, h.1, h.2⟩
      rintro c (rfl | hc)
      · exact hk
      · exact Nat.lt_trans hk (h.1 c hc)
    · split
      · rename_i hk
        simp only [Memory.sorted, Bool.and_eq_true, List.all_eq_true, decide_eq_true_eq]
        exact ⟨fun c hc => hk ▸ h.1 c hc, h.2⟩
      · simp only [Memory.sorted, Bool.and_eq_true, List.all_eq_true, decide_eq_true_eq]
        refine ⟨fun c hc => ?_, ih h.2⟩
        rcases mem_write hc with rfl | hc
        · show k < a
          omega
        · exact h.1 c hc

/-- A write inside the memory keeps its canonical form. -/
theorem write_wf {size : Nat} {m : List Host.Cell} {a : Nat} (b : Byte) (ha : a < size)
    (h : Memory.wf size m = true) : Memory.wf size (Memory.write m a b) = true := by
  simp only [Memory.wf, Bool.and_eq_true, List.all_eq_true, decide_eq_true_eq] at h ⊢
  refine ⟨write_sorted a b h.1, fun c hc => ?_⟩
  rcases mem_write hc with rfl | hc
  · exact ha
  · exact h.2 c hc

/-- A byte string written inside the memory keeps its canonical form. -/
theorem writeBytes_wf {size : Nat} (bs : List Byte) :
    ∀ {m : List Host.Cell} {a : Nat}, a + bs.length ≤ size → Memory.wf size m = true →
      Memory.wf size (Memory.writeBytes m a bs) = true := by
  induction bs with
  | nil => intro m a _ h; exact h
  | cons b bs ih =>
    intro m a ha h
    simp only [List.length_cons] at ha
    exact ih (by omega) (write_wf b (by omega) h)

/-- Nothing is listed right after power-up, and that is the canonical form. -/
@[simp] theorem wf_nil (size : Nat) : Memory.wf size [] = true := rfl

end Sys2Proof.Machine
end

