-- ==== Sys2Proof/Laws/State.lean ====
section
/-! SUPPORT. One lemma for each field of the state under each update of the machine, so that no proof unfolds a record
update. -/

namespace Sys2Proof.Machine

open Sys2Proof

/-! ### Completion -/

@[simp] theorem complete_cfg (s : State) (code : ErrCode) : (s.complete code).cfg = s.cfg := rfl
@[simp] theorem complete_cmd (s : State) (code : ErrCode) : (s.complete code).cmd = s.cmd := rfl
@[simp] theorem complete_busy (s : State) (code : ErrCode) : (s.complete code).busy = false := rfl
@[simp] theorem complete_done (s : State) (code : ErrCode) : (s.complete code).done = true := rfl
@[simp] theorem complete_ovr (s : State) (code : ErrCode) : (s.complete code).ovr = s.ovr := rfl
@[simp] theorem complete_err (s : State) (code : ErrCode) : (s.complete code).err = code := rfl
@[simp] theorem complete_prevErr (s : State) (code : ErrCode) : (s.complete code).prevErr = s.prevErr := rfl
@[simp] theorem complete_shownErr (s : State) (code : ErrCode) : (s.complete code).shownErr = code := rfl
@[simp] theorem complete_ie (s : State) (code : ErrCode) : (s.complete code).ie = s.ie := rfl
@[simp] theorem complete_hostIp (s : State) (code : ErrCode) : (s.complete code).hostIp = s.hostIp := rfl
@[simp] theorem complete_hostMask (s : State) (code : ErrCode) : (s.complete code).hostMask = s.hostMask := rfl
@[simp] theorem complete_args (s : State) (code : ErrCode) : (s.complete code).args = s.args := rfl
@[simp] theorem complete_res (s : State) (code : ErrCode) : (s.complete code).res = s.res := rfl
@[simp] theorem complete_sess (s : State) (code : ErrCode) : (s.complete code).sess = s.sess := rfl
@[simp] theorem complete_oscb (s : State) (code : ErrCode) : (s.complete code).oscb = s.oscb := rfl
@[simp] theorem complete_arp (s : State) (code : ErrCode) : (s.complete code).arp = s.arp := rfl
@[simp] theorem complete_buf (s : State) (code : ErrCode) : (s.complete code).buf = s.buf := rfl
@[simp] theorem complete_latCmd (s : State) (code : ErrCode) : (s.complete code).latCmd = s.latCmd := rfl
@[simp] theorem complete_latArgs (s : State) (code : ErrCode) : (s.complete code).latArgs = s.latArgs := rfl
@[simp] theorem complete_latIp (s : State) (code : ErrCode) : (s.complete code).latIp = s.latIp := rfl
@[simp] theorem complete_latMask (s : State) (code : ErrCode) : (s.complete code).latMask = s.latMask := rfl
@[simp] theorem complete_now (s : State) (code : ErrCode) : (s.complete code).now = s.now := rfl
@[simp] theorem complete_pending (s : State) (code : ErrCode) : (s.complete code).pending = false := rfl
@[simp] theorem complete_tick (s : State) (code : ErrCode) : (s.complete code).tick = s.tick := rfl
@[simp] theorem complete_isnInputs (s : State) (code : ErrCode) : (s.complete code).isnInputs = s.isnInputs := rfl
@[simp] theorem complete_isnDraws (s : State) (code : ErrCode) : (s.complete code).isnDraws = s.isnDraws := rfl
@[simp] theorem complete_freeReads (s : State) (code : ErrCode) : (s.complete code).freeReads = s.freeReads := rfl
@[simp] theorem complete_hostData (s : State) (code : ErrCode) : (s.complete code).hostData = s.hostData := rfl
@[simp] theorem complete_agenda (s : State) (code : ErrCode) : (s.complete code).agenda = s.agenda := rfl

/-! ### Result registers -/

@[simp] theorem setRes_cfg (s : State) (i : Fin 8) (v : Word) : (s.setRes i v).cfg = s.cfg := rfl
@[simp] theorem setRes_cmd (s : State) (i : Fin 8) (v : Word) : (s.setRes i v).cmd = s.cmd := rfl
@[simp] theorem setRes_busy (s : State) (i : Fin 8) (v : Word) : (s.setRes i v).busy = s.busy := rfl
@[simp] theorem setRes_done (s : State) (i : Fin 8) (v : Word) : (s.setRes i v).done = s.done := rfl
@[simp] theorem setRes_ovr (s : State) (i : Fin 8) (v : Word) : (s.setRes i v).ovr = s.ovr := rfl
@[simp] theorem setRes_err (s : State) (i : Fin 8) (v : Word) : (s.setRes i v).err = s.err := rfl
@[simp] theorem setRes_prevErr (s : State) (i : Fin 8) (v : Word) : (s.setRes i v).prevErr = s.prevErr := rfl
@[simp] theorem setRes_ie (s : State) (i : Fin 8) (v : Word) : (s.setRes i v).ie = s.ie := rfl
@[simp] theorem setRes_hostIp (s : State) (i : Fin 8) (v : Word) : (s.setRes i v).hostIp = s.hostIp := rfl
@[simp] theorem setRes_hostMask (s : State) (i : Fin 8) (v : Word) : (s.setRes i v).hostMask = s.hostMask := rfl
@[simp] theorem setRes_args (s : State) (i : Fin 8) (v : Word) : (s.setRes i v).args = s.args := rfl
@[simp] theorem setRes_res (s : State) (i : Fin 8) (v : Word) : (s.setRes i v).res = s.res.set i v := rfl
@[simp] theorem setRes_sess (s : State) (i : Fin 8) (v : Word) : (s.setRes i v).sess = s.sess := rfl
@[simp] theorem setRes_oscb (s : State) (i : Fin 8) (v : Word) : (s.setRes i v).oscb = s.oscb := rfl
@[simp] theorem setRes_arp (s : State) (i : Fin 8) (v : Word) : (s.setRes i v).arp = s.arp := rfl
@[simp] theorem setRes_buf (s : State) (i : Fin 8) (v : Word) : (s.setRes i v).buf = s.buf := rfl
@[simp] theorem setRes_latCmd (s : State) (i : Fin 8) (v : Word) : (s.setRes i v).latCmd = s.latCmd := rfl
@[simp] theorem setRes_latArgs (s : State) (i : Fin 8) (v : Word) : (s.setRes i v).latArgs = s.latArgs := rfl
@[simp] theorem setRes_latIp (s : State) (i : Fin 8) (v : Word) : (s.setRes i v).latIp = s.latIp := rfl
@[simp] theorem setRes_latMask (s : State) (i : Fin 8) (v : Word) : (s.setRes i v).latMask = s.latMask := rfl
@[simp] theorem setRes_now (s : State) (i : Fin 8) (v : Word) : (s.setRes i v).now = s.now := rfl
@[simp] theorem setRes_pending (s : State) (i : Fin 8) (v : Word) : (s.setRes i v).pending = s.pending := rfl
@[simp] theorem setRes_tick (s : State) (i : Fin 8) (v : Word) : (s.setRes i v).tick = s.tick := rfl
@[simp] theorem setRes_isnInputs (s : State) (i : Fin 8) (v : Word) : (s.setRes i v).isnInputs = s.isnInputs := rfl
@[simp] theorem setRes_isnDraws (s : State) (i : Fin 8) (v : Word) : (s.setRes i v).isnDraws = s.isnDraws := rfl
@[simp] theorem setRes_freeReads (s : State) (i : Fin 8) (v : Word) : (s.setRes i v).freeReads = s.freeReads := rfl
@[simp] theorem setRes_hostData (s : State) (i : Fin 8) (v : Word) : (s.setRes i v).hostData = s.hostData := rfl
@[simp] theorem setRes_agenda (s : State) (i : Fin 8) (v : Word) : (s.setRes i v).agenda = s.agenda := rfl

/-! ### Acceptance -/

@[simp] theorem accept_cfg (s : State) (w : Word) : (s.accept w).cfg = s.cfg := rfl
@[simp] theorem accept_cmd (s : State) (w : Word) : (s.accept w).cmd = w := rfl
@[simp] theorem accept_busy (s : State) (w : Word) : (s.accept w).busy = true := rfl
@[simp] theorem accept_done (s : State) (w : Word) : (s.accept w).done = false := rfl
@[simp] theorem accept_ovr (s : State) (w : Word) : (s.accept w).ovr = s.ovr := rfl
@[simp] theorem accept_err (s : State) (w : Word) : (s.accept w).err = ErrCode.ok := rfl
@[simp] theorem accept_prevErr (s : State) (w : Word) : (s.accept w).prevErr = s.err := rfl
@[simp] theorem accept_shownErr (s : State) (w : Word) : (s.accept w).shownErr = s.err := rfl
@[simp] theorem accept_ie (s : State) (w : Word) : (s.accept w).ie = s.ie := rfl
@[simp] theorem accept_hostIp (s : State) (w : Word) : (s.accept w).hostIp = s.hostIp := rfl
@[simp] theorem accept_hostMask (s : State) (w : Word) : (s.accept w).hostMask = s.hostMask := rfl
@[simp] theorem accept_args (s : State) (w : Word) : (s.accept w).args = s.args := rfl
@[simp] theorem accept_res (s : State) (w : Word) : (s.accept w).res = s.res := rfl
@[simp] theorem accept_sess (s : State) (w : Word) : (s.accept w).sess = s.sess := rfl
@[simp] theorem accept_oscb (s : State) (w : Word) : (s.accept w).oscb = s.oscb := rfl
@[simp] theorem accept_arp (s : State) (w : Word) : (s.accept w).arp = s.arp := rfl
@[simp] theorem accept_buf (s : State) (w : Word) : (s.accept w).buf = s.buf := rfl
@[simp] theorem accept_latCmd (s : State) (w : Word) : (s.accept w).latCmd = w := rfl
@[simp] theorem accept_latArgs (s : State) (w : Word) : (s.accept w).latArgs = s.args := rfl
@[simp] theorem accept_latIp (s : State) (w : Word) : (s.accept w).latIp = s.hostIp := rfl
@[simp] theorem accept_latMask (s : State) (w : Word) : (s.accept w).latMask = s.hostMask := rfl
@[simp] theorem accept_now (s : State) (w : Word) : (s.accept w).now = s.tick := rfl
@[simp] theorem accept_pending (s : State) (w : Word) : (s.accept w).pending = true := rfl
@[simp] theorem accept_tick (s : State) (w : Word) : (s.accept w).tick = s.tick := rfl
@[simp] theorem accept_isnInputs (s : State) (w : Word) : (s.accept w).isnInputs = s.isnInputs := rfl
@[simp] theorem accept_isnDraws (s : State) (w : Word) : (s.accept w).isnDraws = s.isnDraws := rfl
@[simp] theorem accept_freeReads (s : State) (w : Word) : (s.accept w).freeReads = s.freeReads := rfl
@[simp] theorem accept_hostData (s : State) (w : Word) : (s.accept w).hostData = s.hostData := rfl
@[simp] theorem accept_agenda (s : State) (w : Word) : (s.accept w).agenda = s.agenda := rfl

/-! ### Inbound slots -/

@[simp] theorem setSlot_cfg (s : State) (j : Nat) (b : Scb) : (s.setSlot j b).cfg = s.cfg := rfl
@[simp] theorem setSlot_cmd (s : State) (j : Nat) (b : Scb) : (s.setSlot j b).cmd = s.cmd := rfl
@[simp] theorem setSlot_busy (s : State) (j : Nat) (b : Scb) : (s.setSlot j b).busy = s.busy := rfl
@[simp] theorem setSlot_done (s : State) (j : Nat) (b : Scb) : (s.setSlot j b).done = s.done := rfl
@[simp] theorem setSlot_ovr (s : State) (j : Nat) (b : Scb) : (s.setSlot j b).ovr = s.ovr := rfl
@[simp] theorem setSlot_err (s : State) (j : Nat) (b : Scb) : (s.setSlot j b).err = s.err := rfl
@[simp] theorem setSlot_prevErr (s : State) (j : Nat) (b : Scb) : (s.setSlot j b).prevErr = s.prevErr := rfl
@[simp] theorem setSlot_ie (s : State) (j : Nat) (b : Scb) : (s.setSlot j b).ie = s.ie := rfl
@[simp] theorem setSlot_hostIp (s : State) (j : Nat) (b : Scb) : (s.setSlot j b).hostIp = s.hostIp := rfl
@[simp] theorem setSlot_hostMask (s : State) (j : Nat) (b : Scb) : (s.setSlot j b).hostMask = s.hostMask := rfl
@[simp] theorem setSlot_args (s : State) (j : Nat) (b : Scb) : (s.setSlot j b).args = s.args := rfl
@[simp] theorem setSlot_res (s : State) (j : Nat) (b : Scb) : (s.setSlot j b).res = s.res := rfl
@[simp] theorem setSlot_sess (s : State) (j : Nat) (b : Scb) : (s.setSlot j b).sess = s.sess.set j b := rfl
@[simp] theorem setSlot_oscb (s : State) (j : Nat) (b : Scb) : (s.setSlot j b).oscb = s.oscb := rfl
@[simp] theorem setSlot_arp (s : State) (j : Nat) (b : Scb) : (s.setSlot j b).arp = s.arp := rfl
@[simp] theorem setSlot_buf (s : State) (j : Nat) (b : Scb) : (s.setSlot j b).buf = s.buf := rfl
@[simp] theorem setSlot_latCmd (s : State) (j : Nat) (b : Scb) : (s.setSlot j b).latCmd = s.latCmd := rfl
@[simp] theorem setSlot_latArgs (s : State) (j : Nat) (b : Scb) : (s.setSlot j b).latArgs = s.latArgs := rfl
@[simp] theorem setSlot_latIp (s : State) (j : Nat) (b : Scb) : (s.setSlot j b).latIp = s.latIp := rfl
@[simp] theorem setSlot_latMask (s : State) (j : Nat) (b : Scb) : (s.setSlot j b).latMask = s.latMask := rfl
@[simp] theorem setSlot_now (s : State) (j : Nat) (b : Scb) : (s.setSlot j b).now = s.now := rfl
@[simp] theorem setSlot_pending (s : State) (j : Nat) (b : Scb) : (s.setSlot j b).pending = s.pending := rfl
@[simp] theorem setSlot_tick (s : State) (j : Nat) (b : Scb) : (s.setSlot j b).tick = s.tick := rfl
@[simp] theorem setSlot_isnInputs (s : State) (j : Nat) (b : Scb) : (s.setSlot j b).isnInputs = s.isnInputs := rfl
@[simp] theorem setSlot_isnDraws (s : State) (j : Nat) (b : Scb) : (s.setSlot j b).isnDraws = s.isnDraws := rfl
@[simp] theorem setSlot_freeReads (s : State) (j : Nat) (b : Scb) : (s.setSlot j b).freeReads = s.freeReads := rfl
@[simp] theorem setSlot_hostData (s : State) (j : Nat) (b : Scb) : (s.setSlot j b).hostData = s.hostData := rfl
@[simp] theorem setSlot_agenda (s : State) (j : Nat) (b : Scb) : (s.setSlot j b).agenda = s.agenda := rfl

/-! ### ARP entries -/

@[simp] theorem setArp_cfg (s : State) (i : Nat) (e : ArpEntry) : (s.setArp i e).cfg = s.cfg := rfl
@[simp] theorem setArp_cmd (s : State) (i : Nat) (e : ArpEntry) : (s.setArp i e).cmd = s.cmd := rfl
@[simp] theorem setArp_busy (s : State) (i : Nat) (e : ArpEntry) : (s.setArp i e).busy = s.busy := rfl
@[simp] theorem setArp_done (s : State) (i : Nat) (e : ArpEntry) : (s.setArp i e).done = s.done := rfl
@[simp] theorem setArp_ovr (s : State) (i : Nat) (e : ArpEntry) : (s.setArp i e).ovr = s.ovr := rfl
@[simp] theorem setArp_err (s : State) (i : Nat) (e : ArpEntry) : (s.setArp i e).err = s.err := rfl
@[simp] theorem setArp_prevErr (s : State) (i : Nat) (e : ArpEntry) : (s.setArp i e).prevErr = s.prevErr := rfl
@[simp] theorem setArp_ie (s : State) (i : Nat) (e : ArpEntry) : (s.setArp i e).ie = s.ie := rfl
@[simp] theorem setArp_hostIp (s : State) (i : Nat) (e : ArpEntry) : (s.setArp i e).hostIp = s.hostIp := rfl
@[simp] theorem setArp_hostMask (s : State) (i : Nat) (e : ArpEntry) : (s.setArp i e).hostMask = s.hostMask := rfl
@[simp] theorem setArp_args (s : State) (i : Nat) (e : ArpEntry) : (s.setArp i e).args = s.args := rfl
@[simp] theorem setArp_res (s : State) (i : Nat) (e : ArpEntry) : (s.setArp i e).res = s.res := rfl
@[simp] theorem setArp_sess (s : State) (i : Nat) (e : ArpEntry) : (s.setArp i e).sess = s.sess := rfl
@[simp] theorem setArp_oscb (s : State) (i : Nat) (e : ArpEntry) : (s.setArp i e).oscb = s.oscb := rfl
@[simp] theorem setArp_arp (s : State) (i : Nat) (e : ArpEntry) : (s.setArp i e).arp = s.arp.set i e := rfl
@[simp] theorem setArp_buf (s : State) (i : Nat) (e : ArpEntry) : (s.setArp i e).buf = s.buf := rfl
@[simp] theorem setArp_latCmd (s : State) (i : Nat) (e : ArpEntry) : (s.setArp i e).latCmd = s.latCmd := rfl
@[simp] theorem setArp_latArgs (s : State) (i : Nat) (e : ArpEntry) : (s.setArp i e).latArgs = s.latArgs := rfl
@[simp] theorem setArp_latIp (s : State) (i : Nat) (e : ArpEntry) : (s.setArp i e).latIp = s.latIp := rfl
@[simp] theorem setArp_latMask (s : State) (i : Nat) (e : ArpEntry) : (s.setArp i e).latMask = s.latMask := rfl
@[simp] theorem setArp_now (s : State) (i : Nat) (e : ArpEntry) : (s.setArp i e).now = s.now := rfl
@[simp] theorem setArp_pending (s : State) (i : Nat) (e : ArpEntry) : (s.setArp i e).pending = s.pending := rfl
@[simp] theorem setArp_tick (s : State) (i : Nat) (e : ArpEntry) : (s.setArp i e).tick = s.tick := rfl
@[simp] theorem setArp_isnInputs (s : State) (i : Nat) (e : ArpEntry) : (s.setArp i e).isnInputs = s.isnInputs := rfl
@[simp] theorem setArp_isnDraws (s : State) (i : Nat) (e : ArpEntry) : (s.setArp i e).isnDraws = s.isnDraws := rfl
@[simp] theorem setArp_freeReads (s : State) (i : Nat) (e : ArpEntry) : (s.setArp i e).freeReads = s.freeReads := rfl
@[simp] theorem setArp_hostData (s : State) (i : Nat) (e : ArpEntry) : (s.setArp i e).hostData = s.hostData := rfl
@[simp] theorem setArp_agenda (s : State) (i : Nat) (e : ArpEntry) : (s.setArp i e).agenda = s.agenda := rfl

/-! ### The agenda -/

@[simp] theorem withAgenda_cfg (s : State) (rest : List Event) : (s.withAgenda rest).cfg = s.cfg := rfl
@[simp] theorem withAgenda_cmd (s : State) (rest : List Event) : (s.withAgenda rest).cmd = s.cmd := rfl
@[simp] theorem withAgenda_busy (s : State) (rest : List Event) : (s.withAgenda rest).busy = s.busy := rfl
@[simp] theorem withAgenda_done (s : State) (rest : List Event) : (s.withAgenda rest).done = s.done := rfl
@[simp] theorem withAgenda_ovr (s : State) (rest : List Event) : (s.withAgenda rest).ovr = s.ovr := rfl
@[simp] theorem withAgenda_err (s : State) (rest : List Event) : (s.withAgenda rest).err = s.err := rfl
@[simp] theorem withAgenda_prevErr (s : State) (rest : List Event) : (s.withAgenda rest).prevErr = s.prevErr := rfl
@[simp] theorem withAgenda_ie (s : State) (rest : List Event) : (s.withAgenda rest).ie = s.ie := rfl
@[simp] theorem withAgenda_hostIp (s : State) (rest : List Event) : (s.withAgenda rest).hostIp = s.hostIp := rfl
@[simp] theorem withAgenda_hostMask (s : State) (rest : List Event) : (s.withAgenda rest).hostMask = s.hostMask := rfl
@[simp] theorem withAgenda_args (s : State) (rest : List Event) : (s.withAgenda rest).args = s.args := rfl
@[simp] theorem withAgenda_res (s : State) (rest : List Event) : (s.withAgenda rest).res = s.res := rfl
@[simp] theorem withAgenda_sess (s : State) (rest : List Event) : (s.withAgenda rest).sess = s.sess := rfl
@[simp] theorem withAgenda_oscb (s : State) (rest : List Event) : (s.withAgenda rest).oscb = s.oscb := rfl
@[simp] theorem withAgenda_arp (s : State) (rest : List Event) : (s.withAgenda rest).arp = s.arp := rfl
@[simp] theorem withAgenda_buf (s : State) (rest : List Event) : (s.withAgenda rest).buf = s.buf := rfl
@[simp] theorem withAgenda_latCmd (s : State) (rest : List Event) : (s.withAgenda rest).latCmd = s.latCmd := rfl
@[simp] theorem withAgenda_latArgs (s : State) (rest : List Event) : (s.withAgenda rest).latArgs = s.latArgs := rfl
@[simp] theorem withAgenda_latIp (s : State) (rest : List Event) : (s.withAgenda rest).latIp = s.latIp := rfl
@[simp] theorem withAgenda_latMask (s : State) (rest : List Event) : (s.withAgenda rest).latMask = s.latMask := rfl
@[simp] theorem withAgenda_now (s : State) (rest : List Event) : (s.withAgenda rest).now = s.now := rfl
@[simp] theorem withAgenda_pending (s : State) (rest : List Event) : (s.withAgenda rest).pending = s.pending := rfl
@[simp] theorem withAgenda_tick (s : State) (rest : List Event) : (s.withAgenda rest).tick = s.tick := rfl
@[simp] theorem withAgenda_isnInputs (s : State) (rest : List Event) : (s.withAgenda rest).isnInputs = s.isnInputs := rfl
@[simp] theorem withAgenda_isnDraws (s : State) (rest : List Event) : (s.withAgenda rest).isnDraws = s.isnDraws := rfl
@[simp] theorem withAgenda_freeReads (s : State) (rest : List Event) : (s.withAgenda rest).freeReads = s.freeReads := rfl
@[simp] theorem withAgenda_hostData (s : State) (rest : List Event) : (s.withAgenda rest).hostData = s.hostData := rfl
@[simp] theorem withAgenda_agenda (s : State) (rest : List Event) : (s.withAgenda rest).agenda = rest := rfl

/-! ### Selected SCBs -/

@[simp] theorem setScb_cfg (s : State) (sel : Byte) (b : Scb) : (s.setScb sel b).cfg = s.cfg := by
  unfold State.setScb; split <;> rfl
@[simp] theorem setScb_cmd (s : State) (sel : Byte) (b : Scb) : (s.setScb sel b).cmd = s.cmd := by
  unfold State.setScb; split <;> rfl
@[simp] theorem setScb_busy (s : State) (sel : Byte) (b : Scb) : (s.setScb sel b).busy = s.busy := by
  unfold State.setScb; split <;> rfl
@[simp] theorem setScb_done (s : State) (sel : Byte) (b : Scb) : (s.setScb sel b).done = s.done := by
  unfold State.setScb; split <;> rfl
@[simp] theorem setScb_ovr (s : State) (sel : Byte) (b : Scb) : (s.setScb sel b).ovr = s.ovr := by
  unfold State.setScb; split <;> rfl
@[simp] theorem setScb_err (s : State) (sel : Byte) (b : Scb) : (s.setScb sel b).err = s.err := by
  unfold State.setScb; split <;> rfl
@[simp] theorem setScb_prevErr (s : State) (sel : Byte) (b : Scb) : (s.setScb sel b).prevErr = s.prevErr := by
  unfold State.setScb; split <;> rfl
@[simp] theorem setScb_ie (s : State) (sel : Byte) (b : Scb) : (s.setScb sel b).ie = s.ie := by
  unfold State.setScb; split <;> rfl
@[simp] theorem setScb_hostIp (s : State) (sel : Byte) (b : Scb) : (s.setScb sel b).hostIp = s.hostIp := by
  unfold State.setScb; split <;> rfl
@[simp] theorem setScb_hostMask (s : State) (sel : Byte) (b : Scb) : (s.setScb sel b).hostMask = s.hostMask := by
  unfold State.setScb; split <;> rfl
@[simp] theorem setScb_args (s : State) (sel : Byte) (b : Scb) : (s.setScb sel b).args = s.args := by
  unfold State.setScb; split <;> rfl
@[simp] theorem setScb_res (s : State) (sel : Byte) (b : Scb) : (s.setScb sel b).res = s.res := by
  unfold State.setScb; split <;> rfl
@[simp] theorem setScb_arp (s : State) (sel : Byte) (b : Scb) : (s.setScb sel b).arp = s.arp := by
  unfold State.setScb; split <;> rfl
@[simp] theorem setScb_buf (s : State) (sel : Byte) (b : Scb) : (s.setScb sel b).buf = s.buf := by
  unfold State.setScb; split <;> rfl
@[simp] theorem setScb_latCmd (s : State) (sel : Byte) (b : Scb) : (s.setScb sel b).latCmd = s.latCmd := by
  unfold State.setScb; split <;> rfl
@[simp] theorem setScb_latArgs (s : State) (sel : Byte) (b : Scb) : (s.setScb sel b).latArgs = s.latArgs := by
  unfold State.setScb; split <;> rfl
@[simp] theorem setScb_latIp (s : State) (sel : Byte) (b : Scb) : (s.setScb sel b).latIp = s.latIp := by
  unfold State.setScb; split <;> rfl
@[simp] theorem setScb_latMask (s : State) (sel : Byte) (b : Scb) : (s.setScb sel b).latMask = s.latMask := by
  unfold State.setScb; split <;> rfl
@[simp] theorem setScb_now (s : State) (sel : Byte) (b : Scb) : (s.setScb sel b).now = s.now := by
  unfold State.setScb; split <;> rfl
@[simp] theorem setScb_pending (s : State) (sel : Byte) (b : Scb) : (s.setScb sel b).pending = s.pending := by
  unfold State.setScb; split <;> rfl
@[simp] theorem setScb_tick (s : State) (sel : Byte) (b : Scb) : (s.setScb sel b).tick = s.tick := by
  unfold State.setScb; split <;> rfl
@[simp] theorem setScb_isnInputs (s : State) (sel : Byte) (b : Scb) : (s.setScb sel b).isnInputs = s.isnInputs := by
  unfold State.setScb; split <;> rfl
@[simp] theorem setScb_isnDraws (s : State) (sel : Byte) (b : Scb) : (s.setScb sel b).isnDraws = s.isnDraws := by
  unfold State.setScb; split <;> rfl
@[simp] theorem setScb_freeReads (s : State) (sel : Byte) (b : Scb) : (s.setScb sel b).freeReads = s.freeReads := by
  unfold State.setScb; split <;> rfl
@[simp] theorem setScb_hostData (s : State) (sel : Byte) (b : Scb) : (s.setScb sel b).hostData = s.hostData := by
  unfold State.setScb; split <;> rfl
@[simp] theorem setScb_agenda (s : State) (sel : Byte) (b : Scb) : (s.setScb sel b).agenda = s.agenda := by
  unfold State.setScb; split <;> rfl

/-! ### The ISN input -/

@[simp] theorem takeIsn_cfg (s : State) : (s.takeIsn).cfg = s.cfg := by
  unfold State.takeIsn; split <;> rfl
@[simp] theorem takeIsn_cmd (s : State) : (s.takeIsn).cmd = s.cmd := by
  unfold State.takeIsn; split <;> rfl
@[simp] theorem takeIsn_busy (s : State) : (s.takeIsn).busy = s.busy := by
  unfold State.takeIsn; split <;> rfl
@[simp] theorem takeIsn_done (s : State) : (s.takeIsn).done = s.done := by
  unfold State.takeIsn; split <;> rfl
@[simp] theorem takeIsn_ovr (s : State) : (s.takeIsn).ovr = s.ovr := by
  unfold State.takeIsn; split <;> rfl
@[simp] theorem takeIsn_err (s : State) : (s.takeIsn).err = s.err := by
  unfold State.takeIsn; split <;> rfl
@[simp] theorem takeIsn_prevErr (s : State) : (s.takeIsn).prevErr = s.prevErr := by
  unfold State.takeIsn; split <;> rfl
@[simp] theorem takeIsn_ie (s : State) : (s.takeIsn).ie = s.ie := by
  unfold State.takeIsn; split <;> rfl
@[simp] theorem takeIsn_hostIp (s : State) : (s.takeIsn).hostIp = s.hostIp := by
  unfold State.takeIsn; split <;> rfl
@[simp] theorem takeIsn_hostMask (s : State) : (s.takeIsn).hostMask = s.hostMask := by
  unfold State.takeIsn; split <;> rfl
@[simp] theorem takeIsn_args (s : State) : (s.takeIsn).args = s.args := by
  unfold State.takeIsn; split <;> rfl
@[simp] theorem takeIsn_res (s : State) : (s.takeIsn).res = s.res := by
  unfold State.takeIsn; split <;> rfl
@[simp] theorem takeIsn_sess (s : State) : (s.takeIsn).sess = s.sess := by
  unfold State.takeIsn; split <;> rfl
@[simp] theorem takeIsn_oscb (s : State) : (s.takeIsn).oscb = s.oscb := by
  unfold State.takeIsn; split <;> rfl
@[simp] theorem takeIsn_arp (s : State) : (s.takeIsn).arp = s.arp := by
  unfold State.takeIsn; split <;> rfl
@[simp] theorem takeIsn_buf (s : State) : (s.takeIsn).buf = s.buf := by
  unfold State.takeIsn; split <;> rfl
@[simp] theorem takeIsn_latCmd (s : State) : (s.takeIsn).latCmd = s.latCmd := by
  unfold State.takeIsn; split <;> rfl
@[simp] theorem takeIsn_latArgs (s : State) : (s.takeIsn).latArgs = s.latArgs := by
  unfold State.takeIsn; split <;> rfl
@[simp] theorem takeIsn_latIp (s : State) : (s.takeIsn).latIp = s.latIp := by
  unfold State.takeIsn; split <;> rfl
@[simp] theorem takeIsn_latMask (s : State) : (s.takeIsn).latMask = s.latMask := by
  unfold State.takeIsn; split <;> rfl
@[simp] theorem takeIsn_now (s : State) : (s.takeIsn).now = s.now := by
  unfold State.takeIsn; split <;> rfl
@[simp] theorem takeIsn_pending (s : State) : (s.takeIsn).pending = s.pending := by
  unfold State.takeIsn; split <;> rfl
@[simp] theorem takeIsn_tick (s : State) : (s.takeIsn).tick = s.tick := by
  unfold State.takeIsn; split <;> rfl
@[simp] theorem takeIsn_freeReads (s : State) : (s.takeIsn).freeReads = s.freeReads := by
  unfold State.takeIsn; split <;> rfl
@[simp] theorem takeIsn_hostData (s : State) : (s.takeIsn).hostData = s.hostData := by
  unfold State.takeIsn; split <;> rfl
@[simp] theorem takeIsn_agenda (s : State) : (s.takeIsn).agenda = s.agenda := by
  unfold State.takeIsn; split <;> rfl

/-! ### Reset -/

@[simp] theorem resetNse_cfg (s : State) : (s.resetNse).cfg = s.cfg := rfl
@[simp] theorem resetNse_cmd (s : State) : (s.resetNse).cmd = 0#32 := rfl
@[simp] theorem resetNse_busy (s : State) : (s.resetNse).busy = false := rfl
@[simp] theorem resetNse_done (s : State) : (s.resetNse).done = false := rfl
@[simp] theorem resetNse_ovr (s : State) : (s.resetNse).ovr = false := rfl
@[simp] theorem resetNse_err (s : State) : (s.resetNse).err = ErrCode.ok := rfl
@[simp] theorem resetNse_prevErr (s : State) : (s.resetNse).prevErr = ErrCode.ok := rfl
@[simp] theorem resetNse_ie (s : State) : (s.resetNse).ie = false := rfl
@[simp] theorem resetNse_hostIp (s : State) : (s.resetNse).hostIp = 0#32 := rfl
@[simp] theorem resetNse_hostMask (s : State) : (s.resetNse).hostMask = 0#32 := rfl
@[simp] theorem resetNse_args (s : State) : (s.resetNse).args = Vector.replicate 8 0#32 := rfl
@[simp] theorem resetNse_res (s : State) : (s.resetNse).res = Vector.replicate 8 0#32 := rfl
@[simp] theorem resetNse_sess (s : State) : (s.resetNse).sess = List.replicate s.cfg.sessEntries Scb.zero := rfl
@[simp] theorem resetNse_oscb (s : State) : (s.resetNse).oscb = Scb.zero := rfl
@[simp] theorem resetNse_arp (s : State) : (s.resetNse).arp = List.replicate s.cfg.arpEntries ArpEntry.zero := rfl
@[simp] theorem resetNse_buf (s : State) : (s.resetNse).buf = s.buf := rfl
@[simp] theorem resetNse_latCmd (s : State) : (s.resetNse).latCmd = 0#32 := rfl
@[simp] theorem resetNse_latArgs (s : State) : (s.resetNse).latArgs = Vector.replicate 8 0#32 := rfl
@[simp] theorem resetNse_latIp (s : State) : (s.resetNse).latIp = 0#32 := rfl
@[simp] theorem resetNse_latMask (s : State) : (s.resetNse).latMask = 0#32 := rfl
@[simp] theorem resetNse_now (s : State) : (s.resetNse).now = 0#32 := rfl
@[simp] theorem resetNse_pending (s : State) : (s.resetNse).pending = false := rfl
@[simp] theorem resetNse_tick (s : State) : (s.resetNse).tick = s.tick := rfl
@[simp] theorem resetNse_isnInputs (s : State) : (s.resetNse).isnInputs = s.isnInputs := rfl
@[simp] theorem resetNse_isnDraws (s : State) : (s.resetNse).isnDraws = s.isnDraws := rfl
@[simp] theorem resetNse_freeReads (s : State) : (s.resetNse).freeReads = s.freeReads := rfl
@[simp] theorem resetNse_hostData (s : State) : (s.resetNse).hostData = s.hostData := rfl
@[simp] theorem resetNse_agenda (s : State) : (s.resetNse).agenda = s.agenda := rfl

end Sys2Proof.Machine
end

