-- ==== Sys2Proof/Laws/Ops.lean ====
section
/-! SUPPORT. What each shared operation can do, said once: searches, selectors, completion, reads of BUF, the frame a
builder command emits. -/

namespace Sys2Proof.Machine

open Sys2Proof

/-! ### Searches (R9, R192) -/

/-- The index a search answers with holds the predicate, and no smaller one does. -/
theorem lowest_eq_some {α : Type} {p : α → Bool} {l : List α} {i : Nat} :
    lowest p l = some i ↔
      ∃ a, l[i]? = some a ∧ p a = true ∧ ∀ j b, j < i → l[j]? = some b → p b = false := by
  unfold lowest
  rw [List.findIdx?_eq_some_iff_getElem]
  constructor
  · rintro ⟨h, hp, hj⟩
    refine ⟨l[i], List.getElem?_eq_getElem h, hp, fun j b hji hb => ?_⟩
    obtain ⟨hl, rfl⟩ := List.getElem?_eq_some_iff.mp hb
    simpa using hj j hji
  · rintro ⟨a, ha, hp, hj⟩
    obtain ⟨hl, rfl⟩ := List.getElem?_eq_some_iff.mp ha
    refine ⟨hl, hp, fun j hji => ?_⟩
    simp [hj j _ hji (List.getElem?_eq_getElem (by omega))]

/-- A search answers none exactly when no element holds the predicate. -/
theorem lowest_eq_none {α : Type} {p : α → Bool} {l : List α} :
    lowest p l = none ↔ ∀ a ∈ l, p a = false := by
  simp [lowest]

/-- A search by an equivalent predicate answers the same. -/
theorem lowest_congr {α : Type} {p q : α → Bool} {l : List α} (h : ∀ a ∈ l, p a = q a) :
    lowest p l = lowest q l := by
  unfold lowest
  induction l with
  | nil => rfl
  | cons a l ih =>
    simp only [List.findIdx?_cons, h a (by simp), ih (fun b hb => h b (by simp [hb]))]

/-! ### Answers -/

@[simp] theorem succeed_eq_next {s t : State} : succeed s = .next t ↔ t = s.complete .ok := by
  simp [succeed, eq_comm]

@[simp] theorem raise_eq_next {s t : State} {code : ErrCode} :
    raise code s = .next t ↔ t = s.complete code := by
  simp [raise, eq_comm]

/-- A command that goes on with the bytes of a range read them all. -/
theorem withBytes_eq_next {s t : State} {a n : Nat} {k : List Byte → Answer} :
    withBytes s a n k = .next t ↔ ∃ bs, Memory.readBytes s.buf a n = some bs ∧ k bs = .next t := by
  unfold withBytes
  split <;> simp_all

/-- The range check is the inequality of R68. -/
@[simp] theorem rangeOk_iff {c : Config} {a n : Nat} : rangeOk c a n = true ↔ a + n ≤ c.bufSize := by
  simp [rangeOk]

/-! ### Selectors (R34) -/

/-- Two selectors name one index only if they are equal. -/
theorem sel_toNat_inj {a b : Byte} (h : a.toNat = b.toNat) : a = b := BitVec.eq_of_toNat_eq h

@[simp] theorem scb?_outbound (s : State) : s.scb? 0xFF#8 = some s.oscb := by simp [State.scb?]

theorem scb?_slot (s : State) {sel : Byte} (h : sel ≠ 0xFF#8) : s.scb? sel = s.sess[sel.toNat]? := by
  simp [State.scb?, h]

theorem setScb_outbound (s : State) (b : Scb) : s.setScb 0xFF#8 b = { s with oscb := b } := by
  simp [State.setScb]

theorem setScb_slot (s : State) (b : Scb) {sel : Byte} (h : sel ≠ 0xFF#8) :
    s.setScb sel b = { s with sess := s.sess.set sel.toNat b } := by
  simp [State.setScb, h]

/-- Writing an SCB keeps the table's size. -/
@[simp] theorem setScb_sess_length (s : State) (sel : Byte) (b : Scb) :
    (s.setScb sel b).sess.length = s.sess.length := by
  unfold State.setScb; split <;> simp

/-- A selector that names an SCB names the one written there. -/
theorem scb?_setScb_same (s : State) (sel : Byte) (b d : Scb) (h : s.scb? sel = some d) :
    (s.setScb sel b).scb? sel = some b := by
  by_cases hs : sel = 0xFF#8
  · subst hs; simp [setScb_outbound]
  · rw [scb?_slot _ hs] at h
    rw [setScb_slot _ _ hs, scb?_slot _ hs]
    obtain ⟨hl, _⟩ := List.getElem?_eq_some_iff.mp h
    simp [hl]

/-- Every other selector names what it named. -/
theorem scb?_setScb_other (s : State) {sel sel' : Byte} (b : Scb) (h : sel' ≠ sel) :
    (s.setScb sel b).scb? sel' = s.scb? sel' := by
  by_cases hs : sel = 0xFF#8
  · subst hs; simp [setScb_outbound, State.scb?, h]
  · rw [setScb_slot _ _ hs]
    by_cases hs' : sel' = 0xFF#8
    · subst hs'; simp
    · rw [scb?_slot _ hs', scb?_slot _ hs']
      have hn : sel.toNat ≠ sel'.toNat := fun e => h (sel_toNat_inj e.symm)
      simp [List.getElem?_set_ne hn]

/-- What a selector names depends on the two tables alone. -/
theorem scb?_congr {s t : State} (hs : t.sess = s.sess) (ho : t.oscb = s.oscb) (sel : Byte) :
    t.scb? sel = s.scb? sel := by
  simp [State.scb?, hs, ho]

/-! ### The ISN source (R186) -/

/-- Taking a value changes the ISN source alone. -/
theorem takeIsn_eq (s : State) :
    s.takeIsn = { s with isnInputs := s.takeIsn.isnInputs, isnDraws := s.takeIsn.isnDraws } := by
  unfold State.takeIsn; split <;> rfl

/-! ### Result registers -/

@[simp] theorem getElem_set_same (v : Vector Word 8) (i : Fin 8) (x : Word) : (v.set i x)[i] = x := by
  simp

theorem getElem_set_other (v : Vector Word 8) {i k : Fin 8} (x : Word) (h : k ≠ i) :
    (v.set i x)[k] = v[k] := by
  have hn : i.val ≠ k.val := fun e => h (Fin.ext e.symm)
  simp [hn]

end Sys2Proof.Machine
end

