-- ==== Sys2Proof/Laws/Exec.lean ====
section
/-! SUPPORT. One inversion lemma for each meaning: if it answers a next state, then one of these cases holds. -/

namespace Sys2Proof.Machine

open Sys2Proof

theorem execNop_cases {s t : State} (h : execNop s = .next t) : t = s.complete .ok := by
  simpa [execNop] using h

theorem execCsum_cases {s t : State} (h : execCsum s = .next t) :
    (s.cfg.bufSize < s.argNat 0 + s.argNat 1 ∧ t = s.complete .badRange) ∨
    ∃ bs, s.argNat 0 + s.argNat 1 ≤ s.cfg.bufSize ∧
      Memory.readBytes s.buf (s.argNat 0) (s.argNat 1) = some bs ∧
      t = (s.setSums (ocsum (s.argLow 2) bs)).complete .ok := by
  unfold execCsum at h
  split at h
  · rename_i hr
    obtain ⟨bs, hb, ht⟩ := withBytes_eq_next.mp h
    exact .inr ⟨bs, rangeOk_iff.mp hr, hb, succeed_eq_next.mp ht⟩
  · rename_i hr
    rw [rangeOk_iff] at hr
    exact .inl ⟨by omega, raise_eq_next.mp h⟩

theorem execCsumFixup_cases {w : Bool} {s t : State} (h : execCsumFixup w s = .next t) :
    t = (s.setRes 0 ((fixup (s.argLow 0) (s.argWords w 1) (s.argWords w 2)).setWidth 32)).complete .ok :=
  succeed_eq_next.mp h

theorem execCsumPseudo_cases {s t : State} (h : execCsumPseudo s = .next t) :
    ((0xFFFF < s.argNat 4 ∨ s.cfg.bufSize < s.argNat 3 + s.argNat 4) ∧ t = s.complete .badRange) ∨
    ∃ bs, s.argNat 4 ≤ 0xFFFF ∧ s.argNat 3 + s.argNat 4 ≤ s.cfg.bufSize ∧
      Memory.readBytes s.buf (s.argNat 3) (s.argNat 4) = some bs ∧
      t = (s.setSums (pseudoSum (s.arg 0) (s.arg 1) (s.argByte 2) (BitVec.ofNat 16 (s.argNat 4)) bs)).complete
        .ok := by
  unfold execCsumPseudo at h
  split at h
  · rename_i hn
    exact .inl ⟨.inl hn, raise_eq_next.mp h⟩
  · rename_i hn
    split at h
    · rename_i hr
      obtain ⟨bs, hb, ht⟩ := withBytes_eq_next.mp h
      exact .inr ⟨bs, by omega, rangeOk_iff.mp hr, hb, succeed_eq_next.mp ht⟩
    · rename_i hr
      rw [rangeOk_iff] at hr
      exact .inl ⟨.inr (by omega), raise_eq_next.mp h⟩

theorem execArpLookup_cases {s t : State} (h : execArpLookup s = .next t) :
    t = (s.setLookup (s.arpHit (s.arg 0))).complete .ok :=
  succeed_eq_next.mp h

theorem execArpUpdate_cases {s t : State} (h : execArpUpdate s = .next t) :
    t = (s.arpUpsert (s.arg 0) s.argMac).complete .ok :=
  succeed_eq_next.mp h

/-- What ARP_UPDATE does: it writes one entry and an outcome code below 3, or ignores the update. -/
theorem arpUpsert_cases (s : State) (ip : Word) (mac : Mac) :
    (∃ i code, s.onSubnet ip = true ∧ s.arpTarget ip = some (i, code) ∧
      s.arpUpsert ip mac =
        ((s.setArp i ⟨true, ip, mac, s.now⟩).setRes 0 code).setRes 1 (BitVec.ofNat 32 i)) ∨
    (∃ code, s.arpUpsert ip mac = (s.setRes 0 code).setRes 1 noIndex) := by
  unfold State.arpUpsert
  split
  · split
    · rename_i hs _ i code ht
      exact .inl ⟨i, code, hs, ht, rfl⟩
    · exact .inr ⟨_, rfl⟩
  · exact .inr ⟨_, rfl⟩

theorem execArpRead_cases {s t : State} (h : execArpRead s = .next t) :
    (s.arp[(s.argByte 0).toNat]? = none ∧ t = s.complete .badIndex) ∨
    ∃ e, s.arp[(s.argByte 0).toNat]? = some e ∧ t = (s.setEntry e).complete .ok := by
  unfold execArpRead at h
  split at h
  · rename_i e he; exact .inr ⟨e, he, succeed_eq_next.mp h⟩
  · rename_i he; exact .inl ⟨he, raise_eq_next.mp h⟩

/-- The end of BUILD and REPLY writes the frame, once the payload is read. -/
theorem buildFrame_cases {s t : State} {sel : Byte} {p : Proto} {b : Scb} {e : Ends} {o : Nat}
    (h : buildFrame s sel p b e o = .next t) :
    ∃ payload, payloadBytes s.buf p b = some payload ∧
      t = (s.emit sel p b o (frameBytes s.cfg s.now p b e payload)).complete .ok := by
  unfold buildFrame at h
  split at h
  · rename_i payload hp; exact ⟨payload, hp, succeed_eq_next.mp h⟩
  · cases h

/-- The builder's range checks, spelled out (R159). -/
theorem builderRangesOk_iff {c : Config} {p : Proto} {b : Scb} {o cap : Nat} :
    builderRangesOk c p b o cap = true ↔
      o + cap ≤ c.bufSize ∧ (b.txptr = 0#32 ∨ b.txptr.toNat + payloadLen p b ≤ c.bufSize) ∧
        totalLen p b ≤ 0xFFFF := by
  simp [builderRangesOk, and_assoc]

theorem execBuild_cases {s t : State} (h : execBuild s = .next t) :
    (s.scb? (s.argByte 0) = none ∧ t = s.complete .badIndex) ∨
    ∃ b, s.scb? (s.argByte 0) = some b ∧
      ((Proto.ofNumber b.proto = none ∧ t = s.complete .badProto) ∨
        ∃ p, Proto.ofNumber b.proto = some p ∧
          ((builderRangesOk s.cfg p b (s.argNat 1) (s.argNat 2) = false ∧ t = s.complete .badRange) ∨
            builderRangesOk s.cfg p b (s.argNat 1) (s.argNat 2) = true ∧
              ((s.argNat 2 < frameLen p b ∧ t = s.complete .allocFail) ∨
                frameLen p b ≤ s.argNat 2 ∧ ∃ payload, payloadBytes s.buf p b = some payload ∧
                  t = (s.emit (s.argByte 0) p b (s.argNat 1)
                    (frameBytes s.cfg s.now p b b.ends payload)).complete .ok))) := by
  unfold execBuild at h
  split at h
  · rename_i hb; exact .inl ⟨hb, raise_eq_next.mp h⟩
  · rename_i b hb
    refine .inr ⟨b, hb, ?_⟩
    split at h
    · rename_i hp; exact .inl ⟨hp, raise_eq_next.mp h⟩
    · rename_i p hp
      refine .inr ⟨p, hp, ?_⟩
      split at h
      · rename_i hr
        refine .inr ⟨hr, ?_⟩
        split at h
        · rename_i hc; exact .inl ⟨hc, raise_eq_next.mp h⟩
        · rename_i hc; exact .inr ⟨by omega, buildFrame_cases h⟩
      · rename_i hr; exact .inl ⟨by simpa using hr, raise_eq_next.mp h⟩

theorem execReply_cases {s t : State} (h : execReply s = .next t) :
    (s.scb? (s.argByte 0) = none ∧ t = s.complete .badIndex) ∨
    ∃ b, s.scb? (s.argByte 0) = some b ∧
      ((¬ (s.argNat 1 + s.argNat 2 ≤ s.cfg.bufSize ∧
          builderRangesOk s.cfg .tcp b (s.argNat 3) (s.argNat 4) = true) ∧ t = s.complete .badRange) ∨
        ((s.argNat 1 + s.argNat 2 ≤ s.cfg.bufSize ∧
          builderRangesOk s.cfg .tcp b (s.argNat 3) (s.argNat 4) = true) ∧
          ((inboundCheck s.buf (s.argNat 1) (s.argNat 2) = .bad ∧ t = s.complete .badPacket) ∨
            ∃ ihl, inboundCheck s.buf (s.argNat 1) (s.argNat 2) = .good ihl ∧
              ((s.argNat 4 < frameLen .tcp b ∧ t = s.complete .allocFail) ∨
                frameLen .tcp b ≤ s.argNat 4 ∧ ∃ e payload, replyEnds s.buf (s.argNat 1) ihl = some e ∧
                  payloadBytes s.buf .tcp b = some payload ∧
                  t = (s.emit (s.argByte 0) .tcp b (s.argNat 3)
                    (frameBytes s.cfg s.now .tcp b e payload)).complete .ok)))) := by
  unfold execReply at h
  split at h
  · rename_i hb; exact .inl ⟨hb, raise_eq_next.mp h⟩
  · rename_i b hb
    refine .inr ⟨b, hb, ?_⟩
    split at h
    · rename_i hr
      rw [Bool.and_eq_true, rangeOk_iff] at hr
      refine .inr ⟨hr, ?_⟩
      split at h
      · cases h
      · rename_i hi; exact .inl ⟨hi, raise_eq_next.mp h⟩
      · rename_i ihl hi
        refine .inr ⟨ihl, hi, ?_⟩
        split at h
        · rename_i hc; exact .inl ⟨hc, raise_eq_next.mp h⟩
        · rename_i hc
          refine .inr ⟨by omega, ?_⟩
          split at h
          · cases h
          · rename_i e he
            obtain ⟨payload, hp, ht⟩ := buildFrame_cases h
            exact ⟨e, payload, he, hp, ht⟩
    · rename_i hr
      rw [Bool.and_eq_true, rangeOk_iff] at hr
      exact .inl ⟨hr, raise_eq_next.mp h⟩

theorem execSessFind_cases {syn : Bool} {s t : State} (h : execSessFind syn s = .next t) :
    (∃ i, s.sessHit s.argTuple = some i ∧ t = (s.setFound (BitVec.ofNat 32 i) 0#32).complete .ok) ∨
    (s.sessHit s.argTuple = none ∧
      ((syn = false ∧ t = (s.setFound noIndex 2#32).complete .ok) ∨
        (syn = true ∧ ∃ j, s.sessFree? = some j ∧
          t = ((s.allocate j s.argTuple).setFound (BitVec.ofNat 32 j) 1#32).complete .ok) ∨
        (syn = true ∧ s.sessFree? = none ∧ t = (s.setFound noIndex 2#32).complete .tableFull))) := by
  unfold execSessFind at h
  split at h
  · rename_i i hi; exact .inl ⟨i, hi, succeed_eq_next.mp h⟩
  · rename_i hn
    refine .inr ⟨hn, ?_⟩
    split at h
    · rename_i hs
      split at h
      · rename_i j hj; exact .inr (.inl ⟨hs, j, hj, succeed_eq_next.mp h⟩)
      · rename_i hj; exact .inr (.inr ⟨hs, hj, raise_eq_next.mp h⟩)
    · rename_i hs; exact .inl ⟨by simpa using hs, succeed_eq_next.mp h⟩

theorem execSessRead_cases {s t : State} (h : execSessRead s = .next t) :
    (s.scb? (s.argByte 0) = none ∧ t = s.complete .badIndex) ∨
    ∃ b, s.scb? (s.argByte 0) = some b ∧
      ((∃ v, t = (s.setRes 0 v).complete .ok) ∨ t = s.complete .badField) := by
  unfold execSessRead at h
  split at h
  · rename_i hb; exact .inl ⟨hb, raise_eq_next.mp h⟩
  · rename_i b hb
    refine .inr ⟨b, hb, ?_⟩
    split at h
    · exact .inl ⟨_, succeed_eq_next.mp h⟩
    · split at h
      · exact .inl ⟨_, succeed_eq_next.mp h⟩
      · exact .inr (raise_eq_next.mp h)

theorem execSessWrite_cases {stamp : Bool} {s t : State} (h : execSessWrite stamp s = .next t) :
    (s.scb? (s.argByte 0) = none ∧ t = s.complete .badIndex) ∨
    ∃ b, s.scb? (s.argByte 0) = some b ∧
      ((ScbField.ofIndex (s.argByte 1) = none ∧ t = s.complete .badField) ∨
        ∃ f, ScbField.ofIndex (s.argByte 1) = some f ∧
          t = (s.setScb (s.argByte 0) ((b.put f (s.arg 2)).stampIf stamp s.now)).complete .ok) := by
  unfold execSessWrite at h
  split at h
  · rename_i hb; exact .inl ⟨hb, raise_eq_next.mp h⟩
  · rename_i b hb
    refine .inr ⟨b, hb, ?_⟩
    split at h
    · rename_i f hf; exact .inr ⟨f, hf, succeed_eq_next.mp h⟩
    · rename_i hf; exact .inl ⟨hf, raise_eq_next.mp h⟩

theorem execSessFree_cases {s t : State} (h : execSessFree s = .next t) :
    (s.scb? (s.argByte 0) = none ∧ t = s.complete .badIndex) ∨
    ∃ b, s.scb? (s.argByte 0) = some b ∧ t = (s.setScb (s.argByte 0) Scb.zero).complete .ok := by
  unfold execSessFree at h
  split at h
  · rename_i hb; exact .inl ⟨hb, raise_eq_next.mp h⟩
  · rename_i b hb; exact .inr ⟨b, hb, succeed_eq_next.mp h⟩

/-- The state the frame's emission leaves, apart from its result registers. -/
theorem emit_eq (s : State) (sel : Byte) (p : Proto) (b : Scb) (o : Nat) (frame : List Byte) :
    s.emit sel p b o frame =
      { s.setScb sel { b with ipid := b.ipid + 1#16 } with
        buf := Memory.writeBytes s.buf o frame, res := (s.emit sel p b o frame).res } := by
  unfold State.emit State.setScb
  split <;> rfl

end Sys2Proof.Machine
end

