-- ==== Sys2Proof/Laws/Frame.lean ====
section
/-! SUPPORT. The lengths of the parts of a frame (spec R140 to R150), and reads of a part of a byte string. -/

namespace Sys2Proof.Machine

open Sys2Proof

@[simp] theorem ethHeader_length (e : Ends) : (ethHeader e).length = 14 := rfl

@[simp] theorem ipHeader_length (p : Proto) (b : Scb) (e : Ends) (ck : Half) :
    (ipHeader p b e ck).length = 20 := rfl

@[simp] theorem timestampOption_length (now : Word) : (timestampOption now).length = 12 := rfl

@[simp] theorem tcpOptions_length (c : Config) (now : Word) (b : Scb) :
    (tcpOptions c now b).length = optionLen b := by
  unfold tcpOptions optionLen
  split <;> rfl

@[simp] theorem transportHeader_length (c : Config) (now : Word) (p : Proto) (b : Scb) (e : Ends) (ck : Half) :
    (transportHeader c now p b e ck).length = headerLen p b := by
  cases p
  · rfl
  · rfl
  · simp [transportHeader, tcpHeader, headerLen]
    omega

/-- A frame with the whole payload has the length R150 gives it. -/
theorem frameBytes_length (c : Config) (now : Word) {p : Proto} {b : Scb} (e : Ends) {payload : List Byte}
    (h : payload.length = payloadLen p b) : (frameBytes c now p b e payload).length = frameLen p b := by
  simp only [frameBytes, List.length_append, ethHeader_length, ipHeader_length, transportHeader_length, h,
    frameLen, totalLen]
  omega

@[simp] theorem filler_length (n : Nat) : (filler n).length = n := by simp [filler]

/-- The payload has the length R149 gives it. -/
theorem payloadBytes_length {m : List Host.Cell} {p : Proto} {b : Scb} {payload : List Byte}
    (h : payloadBytes m p b = some payload) : payload.length = payloadLen p b := by
  unfold payloadBytes at h
  split at h
  · obtain rfl := Option.some.inj h
    exact filler_length _
  · exact readBytes_length h

/-- A part of a byte string that reads as a whole. -/
theorem readBytes_slice {m : List Host.Cell} {a n k l : Nat} {bs : List Byte}
    (h : Memory.readBytes m a n = some bs) (hk : k + l ≤ n) :
    Memory.readBytes m (a + k) l = some ((bs.drop k).take l) := by
  obtain ⟨hl, hr⟩ := (readBytes_eq_some m n a bs).mp h
  refine (readBytes_eq_some m l _ _).mpr ⟨by simp; omega, fun j hj => ?_⟩
  rw [Nat.add_assoc, hr _ (by omega), List.getElem?_take_of_lt hj, List.getElem?_drop]

/-- One byte of a byte string that reads as a whole, as a number. -/
theorem readNat_byte {m : List Host.Cell} {a n k : Nat} {bs : List Byte} {x : Byte}
    (h : Memory.readBytes m a n = some bs) (hx : bs[k]? = some x) :
    Memory.readNat m (a + k) 1 = some x.toNat := by
  have hk : k < n := by
    rw [← readBytes_length h]
    exact (List.getElem?_eq_some_iff.mp hx).1
  have hr : Memory.read m (a + k) = some x := by
    rw [((readBytes_eq_some m n a bs).mp h).2 k hk, hx]
  simp [Memory.readNat, Memory.readBytes, hr, beNat]

end Sys2Proof.Machine
end

