-- ==== Sys2Proof/Laws/PerInstr.lean ====
section
/-! SUPPORT. A fact about every command as syntax, one lemma for each: its fields are well formed (spec R85) and its
word has its row's pattern under its row's mask (spec R84). -/

namespace Sys2Proof.Laws.EncodingFitsRow

open Sys2Proof

/-- The command's fields select a row, and its word has that row's match value under its mask. -/
def Statement (i : Instr) : Prop := i.wellFormed = true ∧ encode i &&& rowMask i = rowMatch i

theorem nop : Statement .nop := ⟨by decide, by decide⟩

theorem csum : Statement .csum := ⟨by decide, by decide⟩

theorem csumFixup (w : Bool) : Statement (.csumFixup w) := by cases w <;> exact ⟨by decide, by decide⟩

theorem csumPseudo : Statement .csumPseudo := ⟨by decide, by decide⟩

theorem arpLookup : Statement .arpLookup := ⟨by decide, by decide⟩

theorem arpUpdate : Statement .arpUpdate := ⟨by decide, by decide⟩

theorem arpRead : Statement .arpRead := ⟨by decide, by decide⟩

theorem build : Statement .build := ⟨by decide, by decide⟩

theorem reply : Statement .reply := ⟨by decide, by decide⟩

theorem sessFind (syn : Bool) : Statement (.sessFind syn) := by cases syn <;> exact ⟨by decide, by decide⟩

theorem sessRead : Statement .sessRead := ⟨by decide, by decide⟩

theorem sessWrite (stamp : Bool) : Statement (.sessWrite stamp) := by cases stamp <;> exact ⟨by decide, by decide⟩

theorem sessFree : Statement .sessFree := ⟨by decide, by decide⟩

end Sys2Proof.Laws.EncodingFitsRow
end

