-- ==== Sys2Proof/Laws/Step.lean ====
section
/-! SUPPORT. What a step can do, said once: its event, the engine's turn, and the host's accesses. -/

namespace Sys2Proof.Machine

open Sys2Proof

/-- A step is the engine's turn on an empty agenda, or the first event of the agenda. -/
theorem step_cases {s t : State} (h : step s = .next t) :
    (s.agenda = [] ∧ engineStep s = .next t) ∨
      ∃ e rest, s.agenda = e :: rest ∧ perform e (s.withAgenda rest) = .next t := by
  unfold step at h
  split at h
  · rename_i e rest ha; exact .inr ⟨e, rest, ha, h⟩
  · rename_i ha; exact .inl ⟨ha, h⟩

/-- The engine's turn runs a pending command, raises ILLEGAL_CMD, or does nothing. -/
theorem engineStep_cases {s t : State} (h : engineStep s = .next t) :
    (s.pending = true ∧ ∃ i, decode s.latCmd = .ok i ∧ exec i s = .next t) ∨
      (s.pending = true ∧ (∃ p, decode s.latCmd = .error p) ∧ t = s.complete .illegalCmd) ∨
      (s.pending = false ∧ t = s) := by
  unfold engineStep at h
  split at h
  · rename_i hp
    split at h
    · rename_i i hd; exact .inl ⟨hp, i, hd, h⟩
    · rename_i p hd; exact .inr (.inl ⟨hp, ⟨p, hd⟩, by simpa [raise, eq_comm] using h⟩)
  · rename_i hp; exact .inr (.inr ⟨by simpa using hp, by simpa [eq_comm] using h⟩)

/-- An event is the engine's turn, a tick, a reset or a host access. -/
theorem perform_cases {e : Event} {s t : State} (h : perform e s = .next t) :
    (e = .engine ∧ engineStep s = .next t) ∨ (e = .tick ∧ t = s.tickOnce) ∨ (e = .reset ∧ t = s.resetNse) ∨
      ∃ a, e = .host a ∧ hostAccess a s = .next t := by
  cases e with
  | host a => exact .inr (.inr (.inr ⟨a, rfl, h⟩))
  | engine => exact .inl ⟨rfl, h⟩
  | tick => exact .inr (.inl ⟨rfl, by simpa [perform, eq_comm] using h⟩)
  | reset => exact .inr (.inr (.inl ⟨rfl, by simpa [perform, eq_comm] using h⟩))

/-- What a host access can do. -/
theorem hostAccess_cases {a : HostAccess} {s t : State} (h : hostAccess a s = .next t) :
    (∃ width off r, a = .regRead width off ∧ regAt width off = some r ∧
        t = { s with hostData := s.regValue r }) ∨
      (∃ width off v r, a = .regWrite width off v ∧ regAt width off = some r ∧ t = s.writeReg r v) ∨
      (∃ x, a = .bufRead x ∧ s.busy = false ∧ x < s.cfg.bufSize ∧ t = s.readBuf x) ∨
      ∃ x b, a = .bufWrite x b ∧ s.busy = false ∧ x < s.cfg.bufSize ∧ t = s.writeBuf x b := by
  have port : ∀ {x : Nat} {u : State}, bufPort s x u = .next t →
      s.busy = false ∧ x < s.cfg.bufSize ∧ t = u := by
    intro x u hu
    unfold bufPort at hu
    split at hu
    · cases hu
    · rename_i hb
      split at hu
      · rename_i hx; exact ⟨by simpa using hb, hx, by simpa [eq_comm] using hu⟩
      · cases hu
  cases a with
  | regRead width off =>
    simp only [hostAccess] at h
    split at h
    · rename_i r hr; exact .inl ⟨width, off, r, rfl, hr, by simpa [eq_comm] using h⟩
    · cases h
  | regWrite width off v =>
    simp only [hostAccess] at h
    split at h
    · rename_i r hr; exact .inr (.inl ⟨width, off, v, r, rfl, hr, by simpa [eq_comm] using h⟩)
    · cases h
  | bufRead x => exact .inr (.inr (.inl ⟨x, rfl, port h⟩))
  | bufWrite x b => exact .inr (.inr (.inr ⟨x, b, rfl, port h⟩))

/-- The only access that reaches CMD, STATUS or CTRL is an aligned word at its offset (R21). -/
theorem regAt_low {width off : Nat} {r : Reg} (h : regAt width off = some r) :
    width = 4 ∧ (r = .cmd → off = 0x00) ∧ (r = .status → off = 0x04) ∧ (r = .ctrl → off = 0x08) := by
  unfold regAt at h
  split at h
  · rename_i hc
    obtain ⟨hw, h4, hl⟩ := hc
    obtain rfl := Option.some.inj h
    have key : ∀ k, k < 64 → (regOfIndex k = .cmd → k = 0) ∧ (regOfIndex k = .status → k = 1) ∧
        (regOfIndex k = .ctrl → k = 2) := by decide
    obtain ⟨k0, k1, k2⟩ := key (off / 4) (by omega)
    exact ⟨hw, fun e => by have := k0 e; omega, fun e => by have := k1 e; omega, fun e => by have := k2 e; omega⟩
  · cases h

end Sys2Proof.Machine
end

