-- ==== Sys2Proof/Laws/Ticks.lean ====
section
/-! SUPPORT. Tick arithmetic at a width and at the 32 bits of this hardware (spec R42, R45). -/

namespace Sys2Proof.Machine

open Sys2Proof

/-- A tick value is the residue modulo `2^TICK_BITS`. -/
@[simp] theorem tickValue_toNat (c : Config) (t : Word) : (tickValue c t).toNat = t.toNat % 2 ^ c.tickBits := by
  rw [tickValue, BitVec.toNat_ofNat]
  exact Nat.mod_eq_of_lt (Nat.lt_of_le_of_lt (Nat.mod_le _ _) t.isLt)

/-- A tick value is in range. -/
theorem tickValue_lt (c : Config) (t : Word) : (tickValue c t).toNat < 2 ^ c.tickBits := by
  rw [tickValue_toNat]
  exact Nat.mod_lt _ (Nat.two_pow_pos _)

/-- At 32 bits every register value is a tick value. -/
theorem tickValue_of_32 {c : Config} (h : c.tickBits = 32) (t : Word) : tickValue c t = t :=
  BitVec.eq_of_toNat_eq (by rw [tickValue_toNat, h]; exact Nat.mod_eq_of_lt t.isLt)

/-- At 32 bits the age is the difference modulo 2^32 (R45). -/
theorem age_of_32 {c : Config} (h : c.tickBits = 32) (now t : Word) : age c now t = (now - t).toNat := by
  rw [age, h]
  exact Nat.mod_eq_of_lt (now - t).isLt

/-- An age is below `2^TICK_BITS`. -/
theorem age_lt (c : Config) (now t : Word) : age c now t < 2 ^ c.tickBits := Nat.mod_lt _ (Nat.two_pow_pos _)

end Sys2Proof.Machine
end

