-- ==== Sys2Proof/Tests/Slice0.lean ====
section
/-! SUPPORT. Tests of one step each, their expected results from the spec's vectors (95_test_vectors.md), and for every
statement with hypotheses a state that meets them. -/

namespace Sys2Proof.Tests

open Sys2Proof Sys2Proof.Machine Sys2Proof.Safety

/- The tests are checked one after another: side by side, the stacks of their threads fill the memory. -/
set_option Elab.async false

/-! ### WellFormed (R80 to R85, R5) -/

/-- RSV bit 16 is set (R83). -/
theorem test_rsv_refused : CommandFields.problem ⟨0x01#8, 0#8, 1#16⟩ = some .reservedRsv := by decide

/-- OPC 0x04 is not listed (R89). -/
theorem test_opc_refused : CommandFields.problem ⟨0x04#8, 0#8, 0#16⟩ = some .unlistedOpc := by decide

/-- CSUM_FIXUP defines MOD[0] alone, CSUM no MOD bit (R82). -/
theorem test_mod_refused :
    CommandFields.problem ⟨0x02#8, 2#8, 0#16⟩ = some .reservedMod ∧
      CommandFields.problem ⟨0x01#8, 1#8, 0#16⟩ = some .reservedMod := by decide

/-- The parameters of the ARP and session vectors (95_test_vectors.md): 2 slots, timeout 100, 2 entries. -/
def cfgT : Config := ⟨2, 100, 2, 120, 1460#16, 0#8, true, 16, 32, 0⟩

theorem test_config_legal : cfgT.legal = true := by decide

/-- One bound of each parameter broken (R5). -/
theorem test_config_refused :
    { cfgT with sessEntries := 0 }.legal = false ∧ { cfgT with sessEntries := 255 }.legal = false ∧
      { cfgT with sessTimeout := 2 ^ 32 }.legal = false ∧ { cfgT with arpEntries := 0 }.legal = false ∧
      { cfgT with arpEntries := 256 }.legal = false ∧ { cfgT with wscale := 15#8 }.legal = false ∧
      { cfgT with bufBits := 10 }.legal = false ∧ { cfgT with bufBits := 25 }.legal = false ∧
      { cfgT with tickBits := 0 }.legal = false ∧ { cfgT with tickBits := 33 }.legal = false := by decide

/-! ### Decoding: words written from the opcode map (R84) -/

/-- Every row, with both values of a MOD bit. -/
theorem test_decode_words :
    decode 0x00000000#32 = .ok .nop ∧ decode 0x00000001#32 = .ok .csum ∧
      decode 0x00000002#32 = .ok (.csumFixup false) ∧ decode 0x00000102#32 = .ok (.csumFixup true) ∧
      decode 0x00000003#32 = .ok .csumPseudo ∧ decode 0x00000010#32 = .ok .arpLookup ∧
      decode 0x00000011#32 = .ok .arpUpdate ∧ decode 0x00000012#32 = .ok .arpRead ∧
      decode 0x00000020#32 = .ok .build ∧ decode 0x00000021#32 = .ok .reply ∧
      decode 0x00000030#32 = .ok (.sessFind false) ∧ decode 0x00000130#32 = .ok (.sessFind true) ∧
      decode 0x00000031#32 = .ok .sessRead ∧ decode 0x00000032#32 = .ok (.sessWrite false) ∧
      decode 0x00000132#32 = .ok (.sessWrite true) ∧ decode 0x00000033#32 = .ok .sessFree :=
  ⟨rfl, rfl, rfl, rfl, rfl, rfl, rfl, rfl, rfl, rfl, rfl, rfl, rfl, rfl, rfl, rfl⟩

/-- EX-1 to EX-7: words that select no row. -/
theorem test_decode_refuses :
    [0x00000004#32, 0x00000101#32, 0x00010001#32, 0x00000202#32, 0x00000330#32, 0x000000FF#32, 0x80000030#32].all
      (fun w => (decode w).toOption == none) = true := by decide

/-- Every row's word runs as the first command after reset. -/
theorem test_rows_run_from_reset :
    [0x000#32, 0x001#32, 0x002#32, 0x102#32, 0x003#32, 0x010#32, 0x011#32, 0x012#32, 0x020#32, 0x021#32, 0x030#32,
        0x130#32, 0x031#32, 0x032#32, 0x132#32, 0x033#32].all
      (fun w => match step (State.reset.withFetchWord 32 w.toNat) with
        | .next t => t.done
        | _ => false) = true := by decide +kernel

/-! ### States -/

/-- Power-on with those parameters and a tick of 1000. -/
def base : State := { State.resetWith cfgT with tick := 1000#32 }

/-- An accepted command with its latched operands, sampled at a tick. -/
def run (now : Word) (args : Vector Word 8) (s : State) : State :=
  { s with latArgs := args, now := now, busy := true, pending := true }

/-- STATUS and the result registers after a command; none where it stopped. -/
def results (a : Answer) : Option (Word × List Word) :=
  match a with
  | .next t => some (t.statusWord, t.res.toList)
  | .fault _ => none
  | .refused _ => none

/-- STATUS, RES0 and RES1. -/
def results2 (a : Answer) : Option (Word × List Word) := (results a).map fun r => (r.1, r.2.take 2)

/-- A field of the next state. -/
def after {α : Type} (f : State → α) (a : Answer) : Option α :=
  match a with
  | .next t => some (f t)
  | .fault _ => none
  | .refused _ => none

/-- BUF with a byte string at an address. -/
def withBuf (a : Nat) (bs : List Byte) (s : State) : State := { s with buf := Memory.writeBytes s.buf a bs }

/-- The bytes of CS-1. -/
def cs1 : List Byte := [0x00#8, 0x01#8, 0xF2#8, 0x03#8, 0xF4#8, 0xF5#8, 0xF6#8, 0xF7#8]

/-! ### Checksum unit -/

/-- CS-1, and CS-2 with its odd last byte. -/
theorem test_csum :
    results2 (exec .csum (run 0 #v[0, 8, 0, 0, 0, 0, 0, 0] (withBuf 0 cs1 base))) =
        some (2#32, [0x220D#32, 0xDDF2#32]) ∧
      results2 (exec .csum (run 0 #v[0, 7, 0, 0, 0, 0, 0, 0] (withBuf 0 cs1 base))) =
        some (2#32, [0x2304#32, 0xDCFB#32]) := by decide +kernel

/-- CS-16 and CS-17: a range that ends one byte beyond BUF, and an empty range at its end. -/
theorem test_csum_range :
    results2 (exec .csum (run 0 #v[0xFFFF, 2, 0, 0, 0, 0, 0, 0] base)) = some (0x402#32, [0#32, 0#32]) ∧
      results2 (exec .csum (run 0 #v[0x10000, 0, 0, 0, 0, 0, 0, 0] base)) =
        some (2#32, [0xFFFF#32, 0#32]) := by decide +kernel

/-- CF-1 and CF-2: one word and two. -/
theorem test_csumFixup :
    results2 (exec (.csumFixup false) (run 0 #v[0xB1E6, 0x4006, 0x3F06, 0, 0, 0, 0, 0] base)) =
        some (2#32, [0xB2E6#32, 0#32]) ∧
      results2 (exec (.csumFixup true) (run 0 #v[0xB1E6, 0xAC100A63, 0xC0A80001, 0, 0, 0, 0, 0] base)) =
        some (2#32, [0xA7B0#32, 0#32]) := by decide +kernel

/-- CP-4: an odd transport length, and CP-6: a length above 0xFFFF. -/
theorem test_csumPseudo :
    results2 (exec .csumPseudo (run 0 #v[0xC0A80102, 0xC0A80101, 17, 0, 9, 0, 0, 0]
        (withBuf 0 [0x04#8, 0x00#8, 0x00#8, 0x35#8, 0x00#8, 0x0B#8, 0x00#8, 0x00#8, 0x68#8] base))) =
        some (2#32, [0x1051#32, 0xEFAE#32]) ∧
      results2 (exec .csumPseudo (run 0 #v[0, 0, 17, 0, 0x10000, 0, 0, 0] base)) =
        some (0x402#32, [0#32, 0#32]) := by decide +kernel

/-! ### ARP cache -/

/-- The host's address and mask of the ARP vectors, and the cache after AR-6. -/
def arpS : State := { base with
  latIp := 0xC0A80102#32, latMask := 0xFFFFFF00#32,
  arp := [⟨true, 0xC0A80101#32, 0x005079666801#48, 1000#32⟩, ⟨true, 0xC0A80103#32, 0x005079666803#48, 1121#32⟩] }

/-- AR-3 and AR-4: fresh at age 120, stale at 121. -/
theorem test_arpLookup :
    results (exec .arpLookup (run 1120 #v[0xC0A80101, 0, 0, 0, 0, 0, 0, 0] arpS)) =
        some (2#32, [1#32, 0x50#32, 0x79666801#32, 0#32, 0#32, 0#32, 0#32, 0#32]) ∧
      results (exec .arpLookup (run 1121 #v[0xC0A80101, 0, 0, 0, 0, 0, 0, 0] arpS)) =
        some (2#32, [0#32, 0#32, 0#32, 0xFFFFFFFF#32, 0#32, 0#32, 0#32, 0#32]) := by decide +kernel

/-- AR-7: a stale entry is replaced. AR-5: an address off the subnet is ignored. -/
theorem test_arpUpdate :
    after (fun t => (t.res[0], t.res[1], t.arp[0]?))
        (exec .arpUpdate (run 1130 #v[0xC0A80104, 0x50, 0x79666804, 0, 0, 0, 0, 0] arpS)) =
        some (2#32, 0#32, some ⟨true, 0xC0A80104#32, 0x005079666804#48, 1130#32⟩) ∧
      after (fun t => (t.res[0], t.res[1], t.arp == arpS.arp))
        (exec .arpUpdate (run 1121 #v[0x0A000001, 0, 1, 0, 0, 0, 0, 0] arpS)) =
        some (3#32, 0xFFFFFFFF#32, true) := by decide +kernel

/-- AR-7r on the second entry, and AR-10: an index equal to ARP_ENTRIES. -/
theorem test_arpRead :
    results (exec .arpRead (run 1200 #v[1, 0, 0, 0, 0, 0, 0, 0] arpS)) =
        some (2#32, [1#32, 0xC0A80103#32, 0x50#32, 0x79666803#32, 1121#32, 1#32, 0#32, 0#32]) ∧
      results2 (exec .arpRead (run 1200 #v[2, 0, 0, 0, 0, 0, 0, 0] arpS)) =
        some (0x202#32, [0#32, 0#32]) := by decide +kernel

/-! ### Session table -/

/-- Slot 0 and slot 1 after ST-2. -/
def slotT1 : Scb := { Scb.zero with
  valid := true, lip := 0xC0A80101#32, rip := 0xC0A80102#32, lport := 0x50#16, rport := 0x400#16,
  seq := 0xAABBCCDD#32, lastTick := 1005#32 }

def slotT2 : Scb := { Scb.zero with
  valid := true, lip := 0xC0A80101#32, rip := 0xC0A80103#32, lport := 0x50#16, rport := 0x401#16,
  seq := 0x11111111#32, lastTick := 1006#32 }

def sessS : State := { base with sess := [slotT1, slotT2], isnInputs := [0x22222222#32] }

def argsT1 : Vector Word 8 := #v[0xC0A80102, 0xC0A80101, 0x04000050, 0, 0, 0, 0, 0]

def argsT3 : Vector Word 8 := #v[0xC0A80104, 0xC0A80101, 0x04020050, 0, 0, 0, 0, 0]

/-- ST-6 and ST-7: live at age 100, expired at 101. -/
theorem test_sessFind :
    results2 (exec (.sessFind false) (run 1105 argsT1 sessS)) = some (2#32, [0#32, 0#32]) ∧
      results2 (exec (.sessFind false) (run 1106 argsT1 sessS)) = some (2#32, [0xFFFFFFFF#32, 2#32]) := by
  decide +kernel

/-- ST-10 and ST-3: a SYN takes an expired slot, and finds no free one. -/
theorem test_sessFind_syn :
    after (fun t => (t.res[0], t.res[1], t.sess[0]?, t.isnInputs))
        (exec (.sessFind true) (run 1106 argsT3 sessS)) =
        some (0#32, 1#32, some { Scb.zero with
          valid := true, lip := 0xC0A80101#32, rip := 0xC0A80104#32, lport := 0x50#16, rport := 0x402#16,
          seq := 0x22222222#32, lastTick := 1106#32 }, []) ∧
      results2 (exec (.sessFind true) (run 1050 argsT3 sessS)) =
        some (0x802#32, [0xFFFFFFFF#32, 2#32]) := by decide +kernel

/-- ST-9b, and ST-17: BAD_INDEX before BAD_FIELD. -/
theorem test_sessRead :
    results2 (exec .sessRead (run 1106 #v[0, 0x1A, 0, 0, 0, 0, 0, 0] { sessS with res := Vector.replicate 8 7 })) =
        some (2#32, [0#32, 7#32]) ∧
      results2 (exec .sessRead (run 1107 #v[2, 0x1B, 0, 0, 0, 0, 0, 0] sessS)) =
        some (0x202#32, [0#32, 0#32]) := by decide +kernel

/-- ST-13 and ST-18: the stamp follows the write; a value is truncated to its field. -/
theorem test_sessWrite :
    after (fun t => t.sess[1]?) (exec (.sessWrite true) (run 1107 #v[1, 7, 0x12, 0, 0, 0, 0, 0] sessS)) =
        some (some { slotT2 with flags := 0x12#8, lastTick := 1107#32 }) ∧
      after (fun t => t.oscb) (exec (.sessWrite false) (run 1107 #v[0xFF, 0x0B, 0x1FF, 0, 0, 0, 0, 0] sessS)) =
        some { Scb.zero with ttl := 0xFF#8 } := by decide +kernel

/-- ST-20 and ST-22. -/
theorem test_sessFree :
    after (fun t => t.sess) (exec .sessFree (run 1107 #v[0, 0, 0, 0, 0, 0, 0, 0] sessS)) =
        some [Scb.zero, slotT2] ∧
      results2 (exec .sessFree (run 1108 #v[2, 0, 0, 0, 0, 0, 0, 0] sessS)) =
        some (0x202#32, [0#32, 0#32]) := by decide +kernel

/-! ### Packet builder -/

/-- The OSCB of PB-1. -/
def oscb1 : Scb := { Scb.zero with
  lip := 0xC0A80102#32, rip := 0xC0A80101#32, lport := 0x400#16, rport := 0x50#16, seq := 0x12345678#32,
  flags := 2#8, window := 0xFAF0#16, mtu := 1500#16, ttl := 64#8, ipid := 1#16, proto := 6#8,
  lmacHi := 0x50#16, lmacLo := 0x79666800#32, rmacHi := 0x50#16, rmacLo := 0x79666801#32 }

def buildS : State := { base with oscb := oscb1 }

/-- The frame of PB-1. -/
def framePb1 : List Byte := [0x00#8, 0x50#8, 0x79#8, 0x66#8, 0x68#8, 0x01#8, 0x00#8, 0x50#8, 0x79#8, 0x66#8, 0x68#8, 0x00#8,
  0x08#8, 0x00#8, 0x45#8, 0x00#8, 0x00#8, 0x3C#8, 0x00#8, 0x01#8, 0x40#8, 0x00#8, 0x40#8, 0x06#8,
  0xB7#8, 0x67#8, 0xC0#8, 0xA8#8, 0x01#8, 0x02#8, 0xC0#8, 0xA8#8, 0x01#8, 0x01#8, 0x04#8, 0x00#8,
  0x00#8, 0x50#8, 0x12#8, 0x34#8, 0x56#8, 0x78#8, 0x00#8, 0x00#8, 0x00#8, 0x00#8, 0xA0#8, 0x02#8,
  0xFA#8, 0xF0#8, 0x5B#8, 0xDF#8, 0x00#8, 0x00#8, 0x02#8, 0x04#8, 0x05#8, 0xB4#8, 0x01#8, 0x01#8,
  0x08#8, 0x0A#8, 0x00#8, 0x00#8, 0x03#8, 0xE8#8, 0x00#8, 0x00#8, 0x00#8, 0x00#8, 0x01#8, 0x03#8,
  0x03#8, 0x00#8]

/-- PB-1: the whole frame, the results, IPID. -/
theorem test_build :
    after (fun t => Memory.readBytes t.buf 0 74) (exec .build (run 1000 #v[0xFF, 0, 128, 0, 0, 0, 0, 0] buildS)) =
        some (some framePb1) ∧
      after (fun t => t.res.toList.take 4) (exec .build (run 1000 #v[0xFF, 0, 128, 0, 0, 0, 0, 0] buildS)) =
        some [74#32, 60#32, 1500#32, 0#32] ∧
      after (fun t => t.oscb.ipid) (exec .build (run 1000 #v[0xFF, 0, 128, 0, 0, 0, 0, 0] buildS)) =
        some 2#16 := by decide +kernel

/-- PB-7 to PB-10: the four errors of BUILD. -/
theorem test_build_errors :
    [(exec .build (run 1000 #v[0xFF, 0, 73, 0, 0, 0, 0, 0] buildS)),
      (exec .build (run 1000 #v[0xFF, 0xFFC0, 0x41, 0, 0, 0, 0, 0] buildS)),
      (exec .build (run 1000 #v[0x10, 0, 128, 0, 0, 0, 0, 0] buildS)),
      (exec .build (run 1000 #v[0xFF, 0, 128, 0, 0, 0, 0, 0] { buildS with oscb := { oscb1 with proto := 2#8 } }))].map
        (after State.statusWord) = [some 0x702#32, some 0x402#32, some 0x202#32, some 0x502#32] := by
  decide +kernel

/-- An inbound TCP frame of 54 bytes, the shortest REPLY accepts. -/
def inbound : List Byte :=
  be48 0x005079666800#48 ++ be48 0x005079666801#48 ++ [0x08#8, 0x00#8, 0x45#8, 0x00#8, 0x00#8, 0x28#8]
    ++ [0#8, 0#8, 0#8, 0#8, 0x40#8, 0x06#8, 0#8, 0#8] ++ be32 0xC0A80101#32 ++ be32 0xC0A80102#32
    ++ be16 0x0050#16 ++ be16 0x0400#16 ++ List.replicate 16 0#8

def replyS : State := withBuf 0 inbound buildS

/-- REPLY swaps the addresses and the ports (R155). -/
theorem test_reply :
    after (fun t => Memory.readBytes t.buf 0x100 12)
        (exec .reply (run 1000 #v[0xFF, 0, 54, 0x100, 128, 0, 0, 0] replyS)) =
        some (some (be48 0x005079666801#48 ++ be48 0x005079666800#48)) ∧
      after (fun t => Memory.readBytes t.buf 0x11A 12)
        (exec .reply (run 1000 #v[0xFF, 0, 54, 0x100, 128, 0, 0, 0] replyS)) =
        some (some (be32 0xC0A80102#32 ++ be32 0xC0A80101#32 ++ be16 0x0400#16 ++ be16 0x0050#16)) := by
  decide +kernel

/-- PB-12 and PB-13: too short, and not TCP. -/
theorem test_reply_errors :
    [(exec .reply (run 1000 #v[0xFF, 0, 33, 0x200, 128, 0, 0, 0] replyS)),
      (exec .reply (run 1000 #v[0xFF, 0, 54, 0x200, 128, 0, 0, 0] (withBuf 23 [17#8] replyS)))].map
        (after State.statusWord) = [some 0x602#32, some 0x602#32] := by decide +kernel

/-! ### States that meet the hypotheses of the statements, clause by clause -/

/-- An accepted command whose turn is next, on an empty agenda and on an agenda with the engine event. -/
def busyS (w : Word) : State := { base with cmd := w, latCmd := w, busy := true, pending := true }

/-- One event to come. -/
def next1 (e : Event) (s : State) : State := { s with agenda := [e] }

/-- The invariant on a state with a cache of two entries. -/
theorem invOf {s : State} {a b : ArpEntry} (h1 : s.cfg.legal = true) (h2 : s.sess.length = s.cfg.sessEntries)
    (h3 : s.arp.length = s.cfg.arpEntries) (h4 : Memory.wf s.cfg.bufSize s.buf = true)
    (h5 : s.pending = s.busy) (h6 : s.busy = true → s.done = false) (h7 : s.busy = true → s.err = .ok)
    (h8 : s.pending = true → s.latCmd = s.cmd) (h9 : s.arp = [a, b])
    (h10 : a.valid = true → b.valid = true → a.ip ≠ b.ip) (h11 : s.tick.toNat < 2 ^ s.cfg.tickBits)
    (h12 : s.now.toNat < 2 ^ s.cfg.tickBits) : NseInv s := by
  refine ⟨h1, h2, h3, h4, h5, h6, h7, h8, ?_, h11, h12⟩
  rw [h9]
  intro i j e f he hf hv hw hip
  match i, j, he, hf with
  | 0, 0, _, _ => rfl
  | 0, 1, he, hf =>
    obtain rfl : a = e := by simpa using he
    obtain rfl : b = f := by simpa using hf
    exact absurd hip (h10 hv hw)
  | 1, 0, he, hf =>
    obtain rfl : b = e := by simpa using he
    obtain rfl : a = f := by simpa using hf
    exact absurd hip.symm (h10 hw hv)
  | 1, 1, _, _ => rfl
  | n + 2, _, he, _ => simp at he
  | 0, n + 2, _, hf => simp at hf
  | 1, n + 2, _, hf => simp at hf

/-- Nothing pending, and a command in progress on the caches of the vectors. -/
theorem witness_invariant : NseInv base ∧ NseInv (busyS 0x10#32) ∧ NseInv { busyS 0x10#32 with arp := arpS.arp } :=
  ⟨invOf (by decide) rfl rfl rfl rfl (by decide) (by decide) (by decide) rfl (by decide) (by decide) (by decide),
    invOf (by decide) rfl rfl rfl rfl (by decide) (by decide) (by decide) rfl (by decide) (by decide) (by decide),
    invOf (by decide) rfl rfl rfl rfl (by decide) (by decide) (by decide) rfl (by decide) (by decide) (by decide)⟩

/-- The engine's turn, on an empty agenda and on an engine event, for a listed and an unlisted word. -/
theorem witness_engineTurn :
    engineTurn (busyS 0x04#32) (busyS 0x04#32) ∧ (busyS 0x04#32).pending = true ∧ (busyS 0x04#32).latCmd = 0x04#32 ∧
      engineTurn (next1 .engine (busyS 0x132#32)) (busyS 0x132#32) ∧
      decode (busyS 0x132#32).latCmd = .ok (.sessWrite true) :=
  ⟨.inl ⟨rfl, rfl⟩, rfl, rfl, .inr ⟨[], rfl, rfl⟩, rfl⟩

/-- CMD writes while idle and while BUSY. -/
theorem witness_cmdWrite :
    ((next1 (.host (.regWrite 4 0x00 0x33#32)) base).busy = false ∧
        (next1 (.host (.regWrite 4 0x00 0x33#32)) base).agenda = .host (.regWrite 4 0x00 0x33#32) :: []) ∧
      (next1 (.host (.regWrite 4 0x00 0x33#32)) (busyS 0#32)).busy = true := ⟨⟨rfl, rfl⟩, rfl⟩

/-- OVR cleared by a STATUS write and by reset; DONE cleared by a STATUS write, by a command and by SRST. -/
theorem witness_flagsCleared :
    after (fun t => t.ovr) (step (next1 (.host (.regWrite 4 0x04 4#32)) { base with ovr := true })) = some false ∧
      after (fun t => t.ovr) (step (next1 .reset { base with ovr := true })) = some false ∧
      after (fun t => t.done) (step (next1 (.host (.regWrite 4 0x04 2#32)) { base with done := true })) =
        some false ∧
      after (fun t => t.done) (step (next1 (.host (.regWrite 4 0x00 0#32)) { base with done := true })) =
        some false ∧
      after (fun t => t.done) (step (next1 (.host (.regWrite 4 0x08 2#32)) { base with done := true })) =
        some false := by decide +kernel

/-- R257: while NOP is in progress after EX-7, STATUS shows BUSY and EX-7's code 1, and after it EX-8's value. -/
theorem test_err_while_busy :
    let s := next1 (.host (.regWrite 4 0x00 0#32)) { base with done := true, err := .illegalCmd }
    after State.statusWord (step s) = some 0x101#32 ∧ s.statusWord = 0x102#32 ∧
      after State.statusWord (exec .nop (s.accept 0#32)) = some 2#32 := by decide +kernel

/-- A step that changes the ERR field of STATUS, and one that changes RES0. -/
theorem witness_resultsChange :
    after State.shownErr (step (busyS 0x04#32)) = some .illegalCmd ∧ (busyS 0x04#32).shownErr = .ok ∧
      after (fun t => t.regValue (.res 0)) (step (busyS 0x01#32)) = some 0xFFFF#32 ∧
      (busyS 0x01#32).regValue (.res 0) = 0#32 := by decide +kernel

/-- A command that ends in an error other than TABLE_FULL, one that ends in TABLE_FULL, and one without error. -/
theorem witness_completion :
    after (fun t => t.err) (exec .arpRead (run 0 #v[2, 0, 0, 0, 0, 0, 0, 0] base)) = some .badIndex ∧
      after (fun t => t.err) (exec (.sessFind true) (run 1050 argsT3 sessS)) = some .tableFull ∧
      after (fun t => t.err) (exec .nop (busyS 0#32)) = some .ok := by decide +kernel

/-- Commands that write no BUF, no ARP entry and no SCB, with a register they do not list. -/
theorem witness_frames :
    writesBuf .csum = false ∧ writesArp .build = false ∧ writesScb (.sessFind false) = false ∧
      (2 : Fin 8) ∉ resultRegs .csum ∧ (6 : Fin 8) ∉ resultRegs .arpRead ∧
      (after (fun t => t.done) (exec .build (run 1000 #v[0xFF, 0, 128, 0, 0, 0, 0, 0] buildS))) = some true ∧
      (after (fun t => t.done) (exec .csum (run 0 #v[0, 8, 0, 0, 0, 0, 0, 0] (withBuf 0 cs1 base)))) = some true := by
  decide +kernel

/-- A write to a read-only register, one to STATUS that clears nothing, and a read at the last offset. -/
theorem witness_readOnly :
    regAt 4 0x5C = some (.res 7) ∧ regAt 4 0x04 = some .status ∧ (0xF01#32).getLsbD 1 = false ∧
      (0xF01#32).getLsbD 2 = false ∧ regAt 4 0xFC = some .reserved ∧
      (next1 (.host (.regWrite 4 0x5C 1#32)) base).agenda = [.host (.regWrite 4 0x5C 1#32)] ∧
      (next1 (.host (.regRead 4 0xFC)) base).agenda = [.host (.regRead 4 0xFC)] := by decide

/-- Legal parameters, and a CTRL write without SRST. -/
theorem witness_capsCtrl : base.cfg.legal = true ∧ (1#32).getLsbD 1 = false ∧
    (next1 (.host (.regWrite 4 0x08 1#32)) base).agenda = [.host (.regWrite 4 0x08 1#32)] := by decide

/-- Writable registers at both ends of the map. -/
theorem witness_writable :
    regAt 4 0x10 = some .hostIp ∧ regAt 4 0x14 = some .hostMask ∧ regAt 4 0x20 = some (.arg 0) ∧
      regAt 4 0x3C = some (.arg 7) ∧
      (next1 (.host (.regWrite 4 0x3C 5#32)) base).agenda = [.host (.regWrite 4 0x3C 5#32)] := by decide

/-- Accesses that are no register access: a byte, an odd offset, the first offset beyond the map. -/
theorem witness_badRegAccess :
    (¬ (1 = 4 ∧ 0 % 4 = 0 ∧ 0 < 256)) ∧ (¬ (4 = 4 ∧ 2 % 4 = 0 ∧ 2 < 256)) ∧
      ¬ (4 = 4 ∧ 0x100 % 4 = 0 ∧ 0x100 < 256) := by decide

/-- A step that changes the tick, at the 32 bits of R5 and at a smaller width. -/
theorem witness_tick :
    after (fun t => t.tick) (step (next1 .tick { base with tick := 0xFFFFFFFF#32 })) = some 0#32 ∧
      base.cfg.tickBits = 32 ∧
      after (fun t => t.tick)
        (step (next1 .tick { base with cfg := { cfgT with tickBits := 8 }, tick := 0xFF#32 })) = some 0#32 := by
  decide +kernel

/-- The BUF port at its last address, idle with a written byte and while BUSY. -/
theorem witness_bufPort :
    base.busy = false ∧ 0xFFFF < base.cfg.bufSize ∧
      Memory.read (withBuf 0xFFFF [7#8] base).buf 0xFFFF = some 7#8 ∧ (busyS 0#32).busy = true := by
  decide +kernel

/-- A range whose last byte was never written. -/
theorem witness_unwritten :
    ∃ s : State, s.argNat 0 + s.argNat 1 ≤ s.cfg.bufSize ∧ 8 < s.argNat 1 ∧
      Memory.read s.buf (s.argNat 0 + 8) = none ∧ s.argNat 4 ≤ 0xFFFF ∧ s.argNat 3 + s.argNat 4 ≤ s.cfg.bufSize ∧
      8 < s.argNat 4 ∧ Memory.read s.buf (s.argNat 3 + 8) = none :=
  ⟨run 0 #v[0, 9, 0, 0, 9, 0, 0, 0] (withBuf 0 cs1 base), by decide +kernel⟩

/-- A never-written last payload byte of BUILD and of REPLY. -/
theorem witness_unwrittenPayload :
    ∃ (s : State) (b : Scb), s.scb? (s.argByte 0) = some b ∧ Proto.ofNumber b.proto = some .tcp ∧
      s.argNat 1 + s.argNat 2 ≤ s.cfg.bufSize ∧ s.argNat 3 + s.argNat 4 ≤ s.cfg.bufSize ∧
      b.txptr.toNat + payloadLen .tcp b ≤ s.cfg.bufSize ∧ totalLen .tcp b ≤ 0xFFFF ∧ frameLen .tcp b ≤ s.argNat 2 ∧
      frameLen .tcp b ≤ s.argNat 4 ∧ b.txptr ≠ 0#32 ∧ 0 < payloadLen .tcp b ∧
      Memory.read s.buf (b.txptr.toNat + 0) = none ∧ 34 ≤ s.argNat 2 ∧
      Memory.readBytes s.buf (s.argNat 1 + 12) 3 = some [0x08#8, 0x00#8, 0x45#8] ∧
      Memory.read s.buf (s.argNat 1 + 23) = some 6#8 :=
  ⟨run 1000 #v[0xFF, 0, 128, 0, 128, 0, 0, 0]
      { replyS with oscb := { oscb1 with txptr := 0x300#32, txlen := 1#16 } },
    { oscb1 with txptr := 0x300#32, txlen := 1#16 }, by decide +kernel⟩

/-- An inbound frame with each byte REPLY reads left out in turn: the Ethernet type, the version, the protocol, a
port. -/
theorem witness_unwrittenInbound :
    [13, 14, 23, 37].all (fun k =>
      let s := run 1000 #v[0xFF, 0, 54, 0x100, 128, 0, 0, 0]
        (withBuf (k + 1) (inbound.drop (k + 1)) (withBuf 0 (inbound.take k) buildS))
      Memory.read s.buf k == none && (results (exec .reply s) == none)) = true := by decide +kernel

/-- Both sources of reset, during a command. -/
theorem witness_reset :
    resetEvent .reset ∧ resetEvent (.host (.regWrite 4 0x08 2#32)) ∧
      after (fun t => t.pending) (step (next1 (.host (.regWrite 4 0x08 2#32)) (busyS 0x33#32))) = some false :=
  ⟨.inl rfl, .inr ⟨2#32, rfl, rfl⟩, by decide +kernel⟩

/-- CSUM on a range that ends at BUF's end, and on one that ends a byte beyond. -/
theorem witness_csum :
    (∃ s : State, s.argNat 0 + s.argNat 1 = s.cfg.bufSize ∧
      Memory.readBytes s.buf (s.argNat 0) (s.argNat 1) = some [1#8, 2#8]) ∧
    ∃ s : State, s.cfg.bufSize + 1 = s.argNat 0 + s.argNat 1 :=
  ⟨⟨run 0 #v[0xFFFE, 2, 0, 0, 0, 0, 0, 0] (withBuf 0xFFFE [1#8, 2#8] base), by decide +kernel⟩,
    ⟨run 0 #v[0xFFFF, 2, 0, 0, 0, 0, 0, 0] base, by decide +kernel⟩⟩

/-- Even and odd pieces, a verified range, and the fixup's ranges: not all zero, and all zero. -/
theorem witness_chaining :
    [0x00#8, 0x01#8].length % 2 = 0 ∧ [0x01#8].length % 2 = 1 ∧
      checksum (be16 0x0001#16 ++ [0xFF#8, 0xFF#8]) = 0xFFFE#16 ∧
      (∃ x ∈ [] ++ [0x0000#16].flatMap be16 ++ [0xFF#8, 0xFF#8], x ≠ 0#8) ∧
      (∀ x ∈ [] ++ [0x0000#16].flatMap be16 ++ ([] : List Byte), x = 0#8) := by decide +kernel

/-- CSUM_PSEUDO on the longest length, beyond it, and on a range that leaves BUF. -/
theorem witness_csumPseudo :
    (∃ s : State, ∃ bs, s.argNat 4 ≤ 0xFFFF ∧ s.argNat 3 + s.argNat 4 = s.cfg.bufSize ∧
      Memory.readBytes s.buf (s.argNat 3) (s.argNat 4) = some bs) ∧
    (∃ s : State, s.argNat 4 = 0x10000) ∧ ∃ s : State, s.cfg.bufSize + 1 = s.argNat 3 + s.argNat 4 :=
  ⟨⟨run 0 #v[0, 0, 17, 0xFFFE, 2, 0, 0, 0] (withBuf 0xFFFE [1#8, 2#8] base), [1#8, 2#8], by decide +kernel⟩,
    ⟨run 0 #v[0, 0, 17, 0, 0x10000, 0, 0, 0] base, by decide +kernel⟩,
    ⟨run 0 #v[0, 0, 17, 0xFFF8, 9, 0, 0, 0] base, by decide +kernel⟩⟩

/-- An entry at a list's index below another's is the first one: for lists of two. -/
theorem below_one {α : Type} {a b : α} {P : α → Prop} (ha : P a) :
    ∀ (j : Nat) (f : α), j < 1 → [a, b][j]? = some f → P f := by
  intro j f hj hf
  obtain rfl : j = 0 := by omega
  obtain rfl : a = f := by simpa using hf
  exact ha

/-- ARP_LOOKUP: a hit in the second entry at age 120, the first one stale; a miss; the invariant with a hit. -/
theorem witness_arpLookup :
    (∃ (s : State) (e : ArpEntry), s.arp[1]? = some e ∧ e.valid = true ∧ e.ip = s.arg 0 ∧
      age s.cfg s.now e.tick = s.cfg.arpFresh ∧ ∀ (j : Nat) (f : ArpEntry), j < 1 → s.arp[j]? = some f →
        ¬ (f.valid = true ∧ f.ip = s.arg 0 ∧ age s.cfg s.now f.tick ≤ s.cfg.arpFresh)) ∧
    (∃ s : State, ∀ e ∈ s.arp, ¬ (e.valid = true ∧ e.ip = s.arg 0 ∧ age s.cfg s.now e.tick ≤ s.cfg.arpFresh)) ∧
    ∃ s : State, NseInv s ∧ after (fun t => t.res[0]) (exec .arpLookup s) = some 1#32 :=
  ⟨⟨run 1241 #v[0xC0A80103, 0, 0, 0, 0, 0, 0, 0] arpS, _, rfl, by decide +kernel, by decide +kernel,
      by decide +kernel, below_one (by decide +kernel)⟩,
    ⟨run 1121 #v[0xC0A80101, 0, 0, 0, 0, 0, 0, 0] arpS, by decide +kernel⟩,
    ⟨{ run 1120 #v[0xC0A80101, 0, 0, 0, 0, 0, 0, 0] arpS with busy := false, pending := false },
      invOf (by decide) rfl rfl rfl rfl (by decide) (by decide) (by decide) rfl (by decide) (by decide) (by decide),
      by decide +kernel⟩⟩

/-- The cache with another tick in its first entry. -/
def arpWith (t : Word) : State := { arpS with
  arp := [⟨true, 0xC0A80101#32, 0x005079666801#48, t⟩, ⟨true, 0xC0A80103#32, 0x005079666803#48, 1121#32⟩] }

/-- ARP_UPDATE: each of its five outcomes, at the second entry where there is one. -/
theorem witness_arpUpdate :
    (∃ s : State, ¬ s.arg 0 &&& s.latMask = s.latIp &&& s.latMask) ∧
    (∃ (s : State) (e : ArpEntry), s.arg 0 &&& s.latMask = s.latIp &&& s.latMask ∧ s.arp[1]? = some e ∧
      e.valid = true ∧ e.ip = s.arg 0 ∧ ∀ (j : Nat) (f : ArpEntry), j < 1 → s.arp[j]? = some f →
        ¬ (f.valid = true ∧ f.ip = s.arg 0)) ∧
    (∃ (s : State) (e : ArpEntry), s.arg 0 &&& s.latMask = s.latIp &&& s.latMask ∧
      (∀ f ∈ s.arp, ¬ (f.valid = true ∧ f.ip = s.arg 0)) ∧ s.arp[1]? = some e ∧ e.valid = false ∧
      ∀ (j : Nat) (f : ArpEntry), j < 1 → s.arp[j]? = some f → f.valid = true) ∧
    (∃ (s : State) (e : ArpEntry), s.arg 0 &&& s.latMask = s.latIp &&& s.latMask ∧
      (∀ f ∈ s.arp, ¬ (f.valid = true ∧ f.ip = s.arg 0)) ∧ (∀ f ∈ s.arp, f.valid = true) ∧ s.arp[1]? = some e ∧
      s.cfg.arpFresh + 1 = age s.cfg s.now e.tick ∧ ∀ (j : Nat) (f : ArpEntry), j < 1 → s.arp[j]? = some f →
        age s.cfg s.now f.tick ≤ s.cfg.arpFresh) ∧
    ∃ s : State, s.arg 0 &&& s.latMask = s.latIp &&& s.latMask ∧
      (∀ f ∈ s.arp, ¬ (f.valid = true ∧ f.ip = s.arg 0)) ∧
      ∀ f ∈ s.arp, f.valid = true ∧ age s.cfg s.now f.tick ≤ s.cfg.arpFresh :=
  ⟨⟨run 1121 #v[0x0A000001, 0, 1, 0, 0, 0, 0, 0] arpS, by decide +kernel⟩,
    ⟨run 1200 #v[0xC0A80103, 0, 0, 0, 0, 0, 0, 0] arpS, _, by decide +kernel, rfl, by decide +kernel,
      by decide +kernel, below_one (by decide +kernel)⟩,
    ⟨run 1121 #v[0xC0A80103, 0, 0, 0, 0, 0, 0, 0]
        { arpS with arp := [⟨true, 0xC0A80101#32, 1#48, 1000#32⟩, ArpEntry.zero] },
      _, by decide +kernel, by decide +kernel, rfl, by decide +kernel, below_one (by decide +kernel)⟩,
    ⟨run 1242 #v[0xC0A80104, 0, 0, 0, 0, 0, 0, 0] (arpWith 1122#32), _, by decide +kernel, by decide +kernel,
      by decide +kernel, rfl, by decide +kernel, below_one (by decide +kernel)⟩,
    ⟨run 1121 #v[0xC0A80105, 0, 0, 0, 0, 0, 0, 0] (arpWith 1001#32), by decide +kernel⟩⟩

/-- ARP_READ and the selectors: the last index and the first one beyond, on a state with the invariant. -/
theorem witness_index :
    (∃ s : State, NseInv s ∧ (s.argByte 0).toNat + 1 = s.cfg.arpEntries ∧ (s.arp[(s.argByte 0).toNat]?).isSome = true ∧
      (s.argByte 0).toNat + 1 = s.cfg.sessEntries) ∧
    ∃ s : State, NseInv s ∧ (s.argByte 0).toNat = s.cfg.arpEntries ∧ s.scb? (s.argByte 0) = none :=
  ⟨⟨{ base with latArgs := #v[1, 0, 0, 0, 0, 0, 0, 0] },
      invOf (by decide) rfl rfl rfl rfl (by decide) (by decide) (by decide) rfl (by decide) (by decide) (by decide), by decide +kernel⟩,
    ⟨{ base with latArgs := #v[2, 0, 0, 0, 0, 0, 0, 0] },
      invOf (by decide) rfl rfl rfl rfl (by decide) (by decide) (by decide) rfl (by decide) (by decide) (by decide), by decide +kernel⟩⟩

/-- A valid entry that a step keeps valid. -/
theorem witness_arpStays : (arpS.arp[1]?).map ArpEntry.valid = some true ∧
    after (fun t => (t.arp[1]?).map ArpEntry.valid) (step (next1 .tick arpS)) = some (some true) := by decide +kernel

/-- SESS_FIND: a hit in the second slot at age 100 with the first one expired, and a SYN that finds none with the
second slot free at age 101 and the first one live. -/
theorem witness_sessFind :
    (∃ (s : State) (b : Scb) (live hits : Scb → Prop),
      (∀ d, live d ↔ d.valid = true ∧ age s.cfg s.now d.lastTick ≤ s.cfg.sessTimeout) ∧
      (∀ d, hits d ↔ live d ∧ d.rip = s.arg 0 ∧ d.lip = s.arg 1 ∧ d.rport = s.argHigh 2 ∧ d.lport = s.argLow 2) ∧
      s.sess[1]? = some b ∧ hits b ∧ ∀ (j : Nat) (d : Scb), j < 1 → s.sess[j]? = some d → ¬ hits d) ∧
    ∃ (s : State) (b : Scb) (live hits : Scb → Prop),
      (∀ d, live d ↔ d.valid = true ∧ age s.cfg s.now d.lastTick ≤ s.cfg.sessTimeout) ∧
      (∀ d, hits d ↔ live d ∧ d.rip = s.arg 0 ∧ d.lip = s.arg 1 ∧ d.rport = s.argHigh 2 ∧ d.lport = s.argLow 2) ∧
      (∀ d ∈ s.sess, ¬ hits d) ∧ s.sess[1]? = some b ∧ ¬ live b ∧
      ∀ (j : Nat) (d : Scb), j < 1 → s.sess[j]? = some d → live d :=
  ⟨⟨run 1106 #v[0xC0A80103, 0xC0A80101, 0x04010050, 0, 0, 0, 0, 0] sessS, slotT2, _, _, fun _ => Iff.rfl,
      fun _ => Iff.rfl, rfl, by decide +kernel, below_one (by decide +kernel)⟩,
    ⟨run 1107 argsT3 { sessS with sess := [{ slotT1 with lastTick := 1007#32 }, slotT2] }, slotT2, _, _,
      fun _ => Iff.rfl, fun _ => Iff.rfl, by decide +kernel, rfl, by decide +kernel, below_one (by decide +kernel)⟩⟩

/-- Every slot live with another tuple. -/
theorem witness_tableFull :
    ∃ s : State, s.sess ≠ [] ∧ ∀ d ∈ s.sess, d.valid = true ∧ age s.cfg s.now d.lastTick ≤ s.cfg.sessTimeout ∧
      ¬ (d.rip = s.arg 0 ∧ d.lip = s.arg 1 ∧ d.rport = s.argHigh 2 ∧ d.lport = s.argLow 2) :=
  ⟨run 1050 argsT3 sessS, by decide +kernel⟩

/-- SESS_FIND from a state with the invariant. -/
theorem witness_oscbOutside : NseInv { run 1105 argsT1 sessS with busy := false, pending := false } ∧
    after (fun t => t.res[0]) (exec (.sessFind true) (run 1105 argsT1 sessS)) = some 0#32 :=
  ⟨invOf (by decide) rfl rfl rfl rfl (by decide) (by decide) (by decide) rfl (by decide) (by decide) (by decide), by decide +kernel⟩

/-- SESS_READ, SESS_WRITE and SESS_FREE: the last field, LIVE of the OSCB and of a slot, the first index beyond. -/
theorem witness_sessFields :
    (∃ s : State, s.scb? (s.argByte 0) = some slotT2 ∧ ScbField.ofIndex (s.argByte 1) = some .rmacLo ∧
      s.argByte 0 ≠ 0xFF#8) ∧
    (∃ s : State, s.scb? (s.argByte 0) = some s.oscb ∧ s.argByte 1 = 0x1A#8 ∧ s.argByte 0 = 0xFF#8) ∧
    (∃ s : State, s.scb? (s.argByte 0) = some slotT2 ∧ s.argByte 1 = 0x1A#8 ∧ s.argByte 0 ≠ 0xFF#8) ∧
    ∃ s : State, s.scb? (s.argByte 0) = some slotT2 ∧ 0x1A < (s.argByte 1).toNat :=
  ⟨⟨run 0 #v[1, 0x19, 0, 0, 0, 0, 0, 0] sessS, by decide +kernel⟩,
    ⟨run 0 #v[0xFF, 0x1A, 0, 0, 0, 0, 0, 0] sessS, by decide +kernel⟩,
    ⟨run 0 #v[1, 0x1A, 0, 0, 0, 0, 0, 0] sessS, by decide +kernel⟩,
    ⟨run 0 #v[1, 0x1B, 0, 0, 0, 0, 0, 0] sessS, by decide +kernel⟩⟩

/-- Two live slots of different tuples are unique, no SESS_WRITE sets a key, and no age wraps with the ticks. -/
theorem witness_sessUnique :
    sessUnique cfgT 1106#32 sessS.sess ∧ (∀ s, ¬ setsSessionKey (.sessFind true) s) ∧
      ∀ b ∈ sessS.sess, b.valid = true → age cfgT 1106#32 b.lastTick + (1000#32).toNat < 2 ^ cfgT.tickBits := by
  refine ⟨?_, ?_, by decide +kernel⟩
  · intro i j b d t hb hd _ _ tb td
    have h1 : ∀ u : Scb, u.hasTuple t = true → u.rip = t.sip := by
      intro u hu
      simp only [Scb.hasTuple, Bool.and_eq_true, beq_iff_eq] at hu
      exact hu.1.1.1
    have hne : slotT1.rip ≠ slotT2.rip := by decide
    have hrip : b.rip = d.rip := (h1 b tb).trans (h1 d td).symm
    match i, j, hb, hd with
    | 0, 0, _, _ => rfl
    | 0, 1, hb, hd =>
      obtain rfl : slotT1 = b := by simpa [sessS] using hb
      obtain rfl : slotT2 = d := by simpa [sessS] using hd
      exact absurd hrip hne
    | 1, 0, hb, hd =>
      obtain rfl : slotT2 = b := by simpa [sessS] using hb
      obtain rfl : slotT1 = d := by simpa [sessS] using hd
      exact absurd hrip.symm hne
    | 1, 1, _, _ => rfl
    | n + 2, _, hb, _ => simp [sessS] at hb
    | 0, n + 2, _, hd => simp [sessS] at hd
    | 1, n + 2, _, hd => simp [sessS] at hd
  · rintro s ⟨stamp, h, _⟩
    cases h

/-- BUILD with the least capacity, and with each check failing in turn at its boundary. -/
theorem witness_build :
    (∃ (s : State) (b : Scb) (payload : List Byte), s.scb? (s.argByte 0) = some b ∧
      Proto.ofNumber b.proto = some .tcp ∧ s.argNat 1 + s.argNat 2 = s.cfg.bufSize ∧ b.txptr = 0#32 ∧
      totalLen .tcp b ≤ 0xFFFF ∧ frameLen .tcp b = s.argNat 2 ∧ payloadBytes s.buf .tcp b = some payload) ∧
    (∃ s : State, s.scb? (s.argByte 0) = none) ∧ Proto.ofNumber 2#8 = none ∧
    (∃ s : State, s.cfg.bufSize + 1 = s.argNat 1 + s.argNat 2 ∧ s.scb? (s.argByte 0) = some oscb1) ∧
    totalLen .udp { oscb1 with txlen := 0xFFE4#16 } = 0x10000 ∧
    ∃ s : State, s.scb? (s.argByte 0) = some oscb1 ∧ s.argNat 1 + s.argNat 2 ≤ s.cfg.bufSize ∧
      s.argNat 2 + 1 = frameLen .tcp oscb1 :=
  ⟨⟨run 1000 #v[0xFF, 0xFFB6, 74, 0, 0, 0, 0, 0] buildS, oscb1, [], by decide +kernel⟩,
    ⟨run 1000 #v[2, 0, 128, 0, 0, 0, 0, 0] buildS, by decide +kernel⟩, rfl,
    ⟨run 1000 #v[0xFF, 0xFFC0, 0x41, 0, 0, 0, 0, 0] buildS, by decide +kernel⟩, by decide +kernel,
    ⟨run 1000 #v[0xFF, 0, 73, 0, 0, 0, 0, 0] buildS, by decide +kernel⟩⟩

/-- REPLY accepts the 54-byte frame, and takes no frame of UDP. -/
theorem witness_tcpFrame : tcpFrame inbound 5 ∧ ∀ ihl, ¬ tcpFrame (inbound.set 23 17#8) ihl := by
  refine ⟨⟨by decide, by decide, ⟨0x45#8, by decide, by decide, by decide⟩, by decide, by decide, by decide⟩, ?_⟩
  rintro ihl ⟨_, _, _, _, _, h⟩
  exact absurd h (by decide)

/-- REPLY with the least capacity, and its range checks failing by one byte. -/
theorem witness_reply :
    (∃ s : State, s.scb? (s.argByte 0) = some oscb1 ∧ s.argNat 1 + s.argNat 2 ≤ s.cfg.bufSize ∧
      s.argNat 3 + s.argNat 4 = s.cfg.bufSize ∧ totalLen .tcp oscb1 ≤ 0xFFFF ∧
      Memory.readBytes s.buf (s.argNat 1) (s.argNat 2) = some inbound ∧ frameLen .tcp oscb1 = s.argNat 4 ∧
      payloadBytes s.buf .tcp oscb1 = some []) ∧
    (∃ s : State, s.scb? (s.argByte 0) = some oscb1 ∧ s.cfg.bufSize + 1 = s.argNat 1 + s.argNat 2) ∧
    (∃ s : State, s.scb? (s.argByte 0) = some oscb1 ∧ s.cfg.bufSize + 1 = s.argNat 3 + s.argNat 4) ∧
    ∃ s : State, s.scb? (s.argByte 0) = some oscb1 ∧
      Memory.readBytes s.buf (s.argNat 1) (s.argNat 2) = some inbound ∧ s.argNat 4 + 1 = frameLen .tcp oscb1 :=
  ⟨⟨run 1000 #v[0xFF, 0, 54, 0xFFB6, 74, 0, 0, 0] replyS, by decide +kernel⟩,
    ⟨run 1000 #v[0xFF, 1, 0x10000, 0, 0, 0, 0, 0] replyS, by decide +kernel⟩,
    ⟨run 1000 #v[0xFF, 0, 0, 0xFFFF, 2, 0, 0, 0] replyS, by decide +kernel⟩,
    ⟨run 1000 #v[0xFF, 0, 54, 0, 73, 0, 0, 0] replyS, by decide +kernel⟩⟩

/-- A SYN and another segment; a payload of its length; a known and an unknown PEER_MSS. -/
theorem witness_frame :
    isSyn oscb1.flags = true ∧ isSyn 0x18#8 = false ∧ ([] : List Byte).length = payloadLen .tcp oscb1 ∧
      oscb1.peerMss = 0#16 ∧ payloadLen .tcp { oscb1 with txlen := 5#16, peerMss := 3#16 } = 3 := by decide

/-- A UDP frame whose payload makes the computed checksum 0x0000 is sent with 0xFFFF (R153): the payload is the
checksum of the frame with a payload of zeros. -/
theorem witness_udpZero :
    ∃ (s : State) (b : Scb), s.scb? (s.argByte 0) = some b ∧ Proto.ofNumber b.proto = some .udp ∧
      s.cfg.udpZeroSubst = true ∧ ~~~transportSum s.cfg s.now .udp b b.ends [0x78#8, 0x36#8] = 0x0000#16 ∧
      after (fun t => t.err) (exec .build s) = some .ok ∧
      after (fun t => Memory.readBytes t.buf 40 2) (exec .build s) = some (some [0xFF#8, 0xFF#8]) :=
  ⟨run 1000 #v[0xFF, 0, 128, 0, 0, 0, 0, 0] (withBuf 0x300 [0x78#8, 0x36#8]
      { buildS with oscb := { oscb1 with proto := 17#8, txptr := 0x300#32, txlen := 2#16 } }),
    { oscb1 with proto := 17#8, txptr := 0x300#32, txlen := 2#16 }, by decide +kernel⟩

/-- BUILD and REPLY end without error. -/
theorem witness_built :
    after (fun t => t.err) (exec .build (run 1000 #v[0xFF, 0, 128, 0, 0, 0, 0, 0] buildS)) = some .ok ∧
      after (fun t => t.err) (exec .reply (run 1000 #v[0xFF, 0, 54, 0x100, 128, 0, 0, 0] replyS)) = some .ok ∧
      (run 1000 #v[0xFF, 0, 128, 0, 0, 0, 0, 0] buildS).scb? 0xFF#8 = some oscb1 ∧
      Proto.ofNumber oscb1.proto = some .tcp := by decide +kernel

/-- A pending command behind a tick, a register read and a write of ARG7. -/
theorem witness_pending :
    ∃ s : State, s.pending = true ∧ decode s.latCmd = .ok .sessFree ∧
      ∀ e ∈ s.agenda, e = .tick ∨ (∃ off, off % 4 = 0 ∧ off < 256 ∧ e = .host (.regRead 4 off)) ∨
        ∃ (k : Fin 8) (v : Word), e = .host (.regWrite 4 (0x20 + 4 * k.val) v) := by
  refine ⟨{ busyS 0x33#32 with agenda := [.tick, .host (.regRead 4 0xFC), .host (.regWrite 4 0x3C 9#32)] }, rfl,
    rfl, ?_⟩
  intro e he
  simp only [List.mem_cons, List.not_mem_nil, or_false] at he
  rcases he with rfl | rfl | rfl
  · exact .inl rfl
  · exact .inr (.inl ⟨0xFC, rfl, by decide, rfl⟩)
  · exact .inr (.inr ⟨7, 9#32, rfl⟩)

end Sys2Proof.Tests
end

/-! ## Proofs: scope and parameters (spec 00_scope.md) -/

namespace Sys2Proof.Machine

open Sys2Proof Sys2Proof.Safety

/-! ### `fold` (R8) -/

theorem fold_of_pos {n : Nat} (h : 0 < n) : fold n = (n - 1) % 0xFFFF + 1 := if_neg (by omega)

theorem fold_lt (n : Nat) : fold n < 0x10000 := by
  unfold fold
  split <;> omega

theorem fold_of_lt {n : Nat} (h : n < 0x10000) : fold n = n := by
  unfold fold
  split <;> omega

theorem fold_eq_zero {n : Nat} : fold n = 0 ↔ n = 0 := by
  unfold fold
  split <;> omega

theorem fold_mod (n : Nat) : fold n % 0xFFFF = n % 0xFFFF := by
  unfold fold
  split <;> omega

/-- `fold` is determined by the residue modulo 0xFFFF and by being 0 or not. -/
theorem fold_congr {m n : Nat} (hz : m = 0 ↔ n = 0) (hm : m % 0xFFFF = n % 0xFFFF) : fold m = fold n := by
  rcases Nat.eq_zero_or_pos m with h | h
  · rw [h, hz.mp h]
  · rw [fold_of_pos h, fold_of_pos (by omega)]
    omega

/-- The carry added back in at the low end does not change the reduction. -/
theorem fold_endAroundCarry (n : Nat) : fold (n % 0x10000 + n / 0x10000) = fold n :=
  fold_congr (by omega) (by omega)

/-- A part of a sum may be folded first. -/
theorem fold_fold_add (m n : Nat) : fold (fold m + n) = fold (m + n) := by
  have hz : fold m = 0 ↔ m = 0 := fold_eq_zero
  have hm : fold m % 0xFFFF = m % 0xFFFF := fold_mod m
  exact fold_congr (by omega) (by omega)

/-! ### `ocsum` (R8) -/

/-- A folded sum fits its 16-bit register. -/
@[simp] theorem toNat_ofNat_fold (n : Nat) : (BitVec.ofNat 16 (fold n)).toNat = fold n := by
  rw [BitVec.toNat_ofNat]
  exact Nat.mod_eq_of_lt (fold_lt n)

theorem ocsum_toNat (i : Half) (bs : List Byte) :
    (ocsum i bs).toNat = fold (i.toNat + sumWords (words bs)) := toNat_ofNat_fold _

@[simp] theorem ocsum_nil (i : Half) : ocsum i [] = i :=
  BitVec.eq_of_toNat_eq ((ocsum_toNat i []).trans (fold_of_lt i.isLt))

theorem ocsum_singleton_toNat (i : Half) (b : Byte) :
    (ocsum i [b]).toNat = fold (i.toNat + 256 * b.toNat) := by
  rw [ocsum_toNat]
  simp [words, sumWords, append_byte_toNat]

/-- The sum over two bytes is the sum with their big-endian word. -/
theorem ocsum_pair (i : Half) (b c : Byte) :
    ocsum i [b, c] = BitVec.ofNat 16 (fold (i.toNat + (256 * b.toNat + c.toNat))) := by
  simp [ocsum, words, sumWords, append_byte_toNat]

/-- The sum over an even piece is the initial value for the rest. -/
theorem ocsum_append (i : Half) {as : List Byte} (bs : List Byte) (h : as.length % 2 = 0) :
    ocsum i (as ++ bs) = ocsum (ocsum i as) bs := by
  apply BitVec.eq_of_toNat_eq
  simp only [ocsum_toNat, words_append as bs h, sumWords_append, fold_fold_add, Nat.add_assoc]

/-! ### What no command writes (R70, R88)

The relation passes through each update a command makes, so a command's frame follows from its inversion lemma. -/

@[simp] theorem sameOutsideCommand_refl (s : State) : sameOutsideCommand s s := by simp [sameOutsideCommand]

@[simp] theorem sameOutsideCommand_complete {s t : State} (code : ErrCode) :
    sameOutsideCommand s (t.complete code) ↔ sameOutsideCommand s t := Iff.rfl

@[simp] theorem sameOutsideCommand_setRes {s t : State} (i : Fin 8) (v : Word) :
    sameOutsideCommand s (t.setRes i v) ↔ sameOutsideCommand s t := Iff.rfl

@[simp] theorem sameOutsideCommand_setSlot {s t : State} (j : Nat) (b : Scb) :
    sameOutsideCommand s (t.setSlot j b) ↔ sameOutsideCommand s t := Iff.rfl

@[simp] theorem sameOutsideCommand_setArp {s t : State} (i : Nat) (e : ArpEntry) :
    sameOutsideCommand s (t.setArp i e) ↔ sameOutsideCommand s t := Iff.rfl

@[simp] theorem sameOutsideCommand_setScb {s t : State} (sel : Byte) (b : Scb) :
    sameOutsideCommand s (t.setScb sel b) ↔ sameOutsideCommand s t := by simp [sameOutsideCommand]

@[simp] theorem sameOutsideCommand_takeIsn {s t : State} :
    sameOutsideCommand s t.takeIsn ↔ sameOutsideCommand s t := by simp [sameOutsideCommand]

@[simp] theorem sameOutsideCommand_emit {s t : State} (sel : Byte) (p : Proto) (b : Scb) (o : Nat)
    (frame : List Byte) : sameOutsideCommand s (t.emit sel p b o frame) ↔ sameOutsideCommand s t := by
  rw [emit_eq]
  exact sameOutsideCommand_setScb sel _

@[simp] theorem sameOutsideCommand_setSums {s t : State} (sum : Half) :
    sameOutsideCommand s (t.setSums sum) ↔ sameOutsideCommand s t := by simp [State.setSums]

@[simp] theorem sameOutsideCommand_setLookup {s t : State} (hit : Option Nat) :
    sameOutsideCommand s (t.setLookup hit) ↔ sameOutsideCommand s t := by
  cases hit <;> simp [State.setLookup]

@[simp] theorem sameOutsideCommand_setEntry {s t : State} (e : ArpEntry) :
    sameOutsideCommand s (t.setEntry e) ↔ sameOutsideCommand s t := by simp [State.setEntry]

@[simp] theorem sameOutsideCommand_arpUpsert {s t : State} (ip : Word) (mac : Mac) :
    sameOutsideCommand s (t.arpUpsert ip mac) ↔ sameOutsideCommand s t := by
  obtain ⟨i, code, -, -, h⟩ | ⟨code, h⟩ := arpUpsert_cases t ip mac
  · simp [h]
  · simp [h]

@[simp] theorem sameOutsideCommand_setFound {s t : State} (index code : Word) :
    sameOutsideCommand s (t.setFound index code) ↔ sameOutsideCommand s t := by simp [State.setFound]

@[simp] theorem sameOutsideCommand_allocate {s t : State} (j : Nat) (x : Tuple) :
    sameOutsideCommand s (t.allocate j x) ↔ sameOutsideCommand s t := by simp [State.allocate]

/-- No command writes anything but BUF, the tables, RES, STATUS and the ISN source. -/
theorem exec_sameOutsideCommand {i : Instr} {s t : State} (h : exec i s = .next t) :
    sameOutsideCommand s t := by
  cases i with
  | nop =>
    obtain rfl := execNop_cases h
    simp
  | csum => obtain ⟨-, rfl⟩ | ⟨_, -, -, rfl⟩ := execCsum_cases h <;> simp
  | csumFixup w =>
    obtain rfl := execCsumFixup_cases h
    simp
  | csumPseudo => obtain ⟨-, rfl⟩ | ⟨_, -, -, -, rfl⟩ := execCsumPseudo_cases h <;> simp
  | arpLookup =>
    obtain rfl := execArpLookup_cases h
    simp
  | arpUpdate =>
    obtain rfl := execArpUpdate_cases h
    simp
  | arpRead => obtain ⟨-, rfl⟩ | ⟨_, -, rfl⟩ := execArpRead_cases h <;> simp
  | build =>
    obtain ⟨-, rfl⟩ | ⟨_, -, ⟨-, rfl⟩ | ⟨_, -, ⟨-, rfl⟩ | ⟨-, ⟨-, rfl⟩ | ⟨-, _, -, rfl⟩⟩⟩⟩ :=
      execBuild_cases h <;> simp
  | reply =>
    obtain ⟨-, rfl⟩ | ⟨_, -, ⟨-, rfl⟩ | ⟨-, ⟨-, rfl⟩ | ⟨_, -, ⟨-, rfl⟩ | ⟨-, _, _, -, -, rfl⟩⟩⟩⟩ :=
      execReply_cases h <;> simp
  | sessFind syn =>
    obtain ⟨_, -, rfl⟩ | ⟨-, ⟨-, rfl⟩ | ⟨-, _, -, rfl⟩ | ⟨-, -, rfl⟩⟩ := execSessFind_cases h <;> simp
  | sessRead => obtain ⟨-, rfl⟩ | ⟨_, -, ⟨_, rfl⟩ | rfl⟩ := execSessRead_cases h <;> simp
  | sessWrite stamp => obtain ⟨-, rfl⟩ | ⟨_, -, ⟨-, rfl⟩ | ⟨_, -, rfl⟩⟩ := execSessWrite_cases h <;> simp
  | sessFree => obtain ⟨-, rfl⟩ | ⟨_, -, rfl⟩ := execSessFree_cases h <;> simp

/-! ### What moves the tick (R42, R259) -/

/-- A command leaves the tick input alone. -/
theorem exec_tick {i : Instr} {s t : State} (h : exec i s = .next t) : t.tick = s.tick := by
  obtain ⟨-, -, -, -, -, -, -, -, -, -, -, -, -, htick, -⟩ := exec_sameOutsideCommand h
  exact htick

theorem engineStep_tick {s t : State} (h : engineStep s = .next t) : t.tick = s.tick := by
  obtain ⟨-, _, -, hx⟩ | ⟨-, -, rfl⟩ | ⟨-, rfl⟩ := engineStep_cases h
  · exact exec_tick hx
  · exact complete_tick _ _
  · rfl

@[simp] theorem writeCmd_tick (s : State) (w : Word) : (s.writeCmd w).tick = s.tick := by
  unfold State.writeCmd
  split <;> rfl

@[simp] theorem writeCtrl_tick (s : State) (v : Word) : (s.writeCtrl v).tick = s.tick := by
  unfold State.writeCtrl
  split <;> rfl

/-- TICK is read-only to the host (R26). -/
@[simp] theorem writeReg_tick (s : State) (r : Reg) (v : Word) : (s.writeReg r v).tick = s.tick := by
  cases r with
  | cmd => exact writeCmd_tick s v
  | ctrl => exact writeCtrl_tick s v
  | _ => rfl

@[simp] theorem readBuf_tick (s : State) (a : Nat) : (s.readBuf a).tick = s.tick := by
  unfold State.readBuf
  split <;> rfl

@[simp] theorem writeBuf_tick (s : State) (a : Nat) (b : Byte) : (s.writeBuf a b).tick = s.tick := rfl

theorem hostAccess_tick {a : HostAccess} {s t : State} (h : hostAccess a s = .next t) : t.tick = s.tick := by
  obtain ⟨_, _, _, -, -, rfl⟩ | ⟨_, _, _, _, -, -, rfl⟩ | ⟨_, -, -, -, rfl⟩ | ⟨_, _, -, -, -, rfl⟩ :=
    hostAccess_cases h
  · rfl
  · exact writeReg_tick _ _ _
  · exact readBuf_tick _ _
  · exact writeBuf_tick _ _ _

/-- Every event but the tick itself leaves the tick input alone. -/
theorem perform_tick {e : Event} {s t : State} (h : perform e s = .next t) (he : e ≠ .tick) :
    t.tick = s.tick := by
  obtain ⟨-, hx⟩ | ⟨rfl, -⟩ | ⟨-, rfl⟩ | ⟨_, -, ha⟩ := perform_cases h
  · exact engineStep_tick hx
  · exact absurd rfl he
  · exact resetNse_tick s
  · exact hostAccess_tick ha

/-- A step that moves the tick performs a tick event. -/
theorem step_moves_tick {s t : State} (h : step s = .next t) (ht : t.tick ≠ s.tick) :
    ∃ rest, s.agenda = .tick :: rest := by
  obtain ⟨-, hx⟩ | ⟨e, rest, ha, hp⟩ := step_cases h
  · exact absurd (engineStep_tick hx) ht
  · by_cases he : e = .tick
    · exact ⟨rest, he ▸ ha⟩
    · exact absurd (perform_tick hp he) ht

/-- A tick event takes the next tick value, and changes nothing else but the agenda. -/
theorem step_tick {s : State} {rest : List Event} (h : s.agenda = .tick :: rest) :
    step s = .next { s with tick := tickValue s.cfg (s.tick + 1#32), agenda := rest } := by
  unfold step
  rw [h]
  rfl

/-- The next tick value is one more, modulo `2^TICK_BITS`. -/
theorem tickValue_add_one_toNat {c : Config} (h : c.tickBits ≤ 32) (t : Word) :
    (tickValue c (t + 1#32)).toNat = (t.toNat + 1) % 2 ^ c.tickBits := by
  rw [tickValue_toNat, BitVec.toNat_add]
  exact Nat.mod_mod_of_dvd _ (Nat.pow_dvd_pow 2 h)

end Sys2Proof.Machine

namespace Sys2Proof.Proofs

open Sys2Proof Sys2Proof.Machine

/-- Settles O20: the tick event's step is computed, and every other event is shown to keep the tick. -/
theorem tickAdvancesByOneOnly : Obligations.TickAdvancesByOneOnly := by
  refine ⟨fun s rest ha h32 => ?_, fun s rest ha hle => ?_, fun s t h ht => step_moves_tick h ht⟩
  · rw [step_tick ha, tickValue_of_32 h32]
  · exact ⟨_, step_tick ha, tickValue_add_one_toNat hle s.tick, rfl⟩

/-- Settles O27, from the residue of `fold` modulo 0xFFFF and the chaining of `ocsum` over an even piece. -/
theorem foldIsEndAroundCarry : Obligations.FoldIsEndAroundCarry := by
  refine ⟨fun n => ⟨fold_lt n, fold_of_lt, fold_endAroundCarry n, fold_eq_zero, fold_mod n⟩,
    fun i => ⟨ocsum_nil i, ocsum_singleton_toNat i, fun b c bs => ?_⟩, fun bs => rfl⟩
  rw [← ocsum_pair]
  exact ocsum_append i (as := [b, c]) bs (by simp)

end Sys2Proof.Proofs

/-! ## Proofs: state (spec 10_state.md) -/

namespace Sys2Proof.Machine

open Sys2Proof Sys2Proof.Safety

/-! ### The parameters (R5) -/

/-- The legal ranges of the parameters, as inequalities. -/
theorem legal_iff {c : Config} : c.legal = true ↔
    1 ≤ c.sessEntries ∧ c.sessEntries ≤ 254 ∧ c.sessTimeout < 2 ^ 32 ∧ 1 ≤ c.arpEntries ∧ c.arpEntries ≤ 255 ∧
      c.wscale.toNat ≤ 14 ∧ 11 ≤ c.bufBits ∧ c.bufBits ≤ 24 ∧ 1 ≤ c.tickBits ∧ c.tickBits ≤ 32 := by
  simp [Config.legal, and_assoc]

/-- A command leaves the parameters alone. -/
theorem exec_cfg {i : Instr} {s t : State} (h : exec i s = .next t) : t.cfg = s.cfg :=
  (exec_sameOutsideCommand h).1

theorem engineStep_cfg {s t : State} (h : engineStep s = .next t) : t.cfg = s.cfg := by
  obtain ⟨-, _, -, hx⟩ | ⟨-, -, rfl⟩ | ⟨-, rfl⟩ := engineStep_cases h
  · exact exec_cfg hx
  · exact complete_cfg _ _
  · rfl

@[simp] theorem writeReg_cfg (s : State) (r : Reg) (v : Word) : (s.writeReg r v).cfg = s.cfg := by
  cases r with
  | cmd =>
    show (s.writeCmd v).cfg = s.cfg
    unfold State.writeCmd
    split <;> rfl
  | ctrl =>
    show (s.writeCtrl v).cfg = s.cfg
    unfold State.writeCtrl
    split <;> rfl
  | _ => rfl

@[simp] theorem readBuf_cfg (s : State) (a : Nat) : (s.readBuf a).cfg = s.cfg := by
  unfold State.readBuf
  split <;> rfl

theorem hostAccess_cfg {a : HostAccess} {s t : State} (h : hostAccess a s = .next t) : t.cfg = s.cfg := by
  obtain ⟨_, _, _, -, -, rfl⟩ | ⟨_, _, _, _, -, -, rfl⟩ | ⟨_, -, -, -, rfl⟩ | ⟨_, _, -, -, -, rfl⟩ :=
    hostAccess_cases h
  · rfl
  · exact writeReg_cfg _ _ _
  · exact readBuf_cfg _ _
  · rfl

theorem perform_cfg {e : Event} {s t : State} (h : perform e s = .next t) : t.cfg = s.cfg := by
  obtain ⟨-, hx⟩ | ⟨-, rfl⟩ | ⟨-, rfl⟩ | ⟨_, -, ha⟩ := perform_cases h
  · exact engineStep_cfg hx
  · rfl
  · exact resetNse_cfg s
  · exact hostAccess_cfg ha

/-- No step changes the parameters. -/
theorem step_cfg {s t : State} (h : step s = .next t) : t.cfg = s.cfg := by
  obtain ⟨-, hx⟩ | ⟨_, rest, -, hp⟩ := step_cases h
  · exact engineStep_cfg hx
  · exact (perform_cfg hp).trans (withAgenda_cfg s rest)

/-! ### What a frame's emission leaves in BUF and the tables (R154, R156) -/

@[simp] theorem emit_cfg (s : State) (sel : Byte) (p : Proto) (b : Scb) (o : Nat) (frame : List Byte) :
    (s.emit sel p b o frame).cfg = s.cfg := by simp [State.emit]

@[simp] theorem emit_arp (s : State) (sel : Byte) (p : Proto) (b : Scb) (o : Nat) (frame : List Byte) :
    (s.emit sel p b o frame).arp = s.arp := by simp [State.emit]

@[simp] theorem emit_buf (s : State) (sel : Byte) (p : Proto) (b : Scb) (o : Nat) (frame : List Byte) :
    (s.emit sel p b o frame).buf = Memory.writeBytes s.buf o frame := by simp [State.emit]

@[simp] theorem emit_sess_length (s : State) (sel : Byte) (p : Proto) (b : Scb) (o : Nat) (frame : List Byte) :
    (s.emit sel p b o frame).sess.length = s.sess.length := by simp [State.emit]

/-! ### Uniqueness in the ARP cache (R41) -/

/-- An entry written where no other valid one holds its address keeps the cache unique. -/
theorem arpUnique_set {l : List ArpEntry} {i : Nat} {e : ArpEntry} (hl : arpUnique l)
    (he : ∀ j f, l[j]? = some f → f.valid = true → f.ip = e.ip → j = i) : arpUnique (l.set i e) := by
  have written : ∀ {j f}, (l.set i e)[j]? = some f → (j = i ∧ f = e) ∨ l[j]? = some f := by
    intro j f hj
    by_cases hji : j = i
    · subst hji
      obtain ⟨hlt, rfl⟩ := List.getElem?_eq_some_iff.mp hj
      exact .inl ⟨rfl, by simp⟩
    · exact .inr (by rwa [List.getElem?_set_ne (Ne.symm hji)] at hj)
  intro j k f g hj hk hf hg hip
  obtain ⟨rfl, rfl⟩ | hjl := written hj <;> obtain ⟨rfl, rfl⟩ | hkl := written hk
  · rfl
  · exact (he k g hkl hg hip.symm).symm
  · exact he j f hjl hf hip
  · exact hl j k f g hjl hkl hf hg hip

theorem arpUnique_replicate_zero (n : Nat) : arpUnique (List.replicate n ArpEntry.zero) := by
  intro i j e f hi _ he _ _
  obtain ⟨hlt, rfl⟩ := List.getElem?_eq_some_iff.mp hi
  simp [ArpEntry.zero] at he

/-- In a unique cache ARP_UPDATE writes the one entry of its address, where there is one (R124). -/
theorem arpTarget_of_ip {s : State} {ip code : Word} {i j : Nat} {f : ArpEntry} (hs : arpUnique s.arp)
    (ht : s.arpTarget ip = some (i, code)) (hj : s.arp[j]? = some f) (hv : f.valid = true) (hip : f.ip = ip) :
    j = i := by
  unfold State.arpTarget at ht
  split at ht
  · rename_i k hk
    obtain ⟨rfl, -⟩ : k = i ∧ 0#32 = code := by simpa using ht
    obtain ⟨e, he, hp, -⟩ := lowest_eq_some.mp hk
    obtain ⟨hev, heip⟩ : e.valid = true ∧ e.ip = ip := by simpa using hp
    exact hs j k f e hj he hv hev (hip.trans heip.symm)
  · rename_i hn
    have hmiss := lowest_eq_none.mp hn f (List.mem_of_getElem? hj)
    simp [hv, hip] at hmiss

/-! ### The part of the invariant a command can touch -/

/-- The tables have the parameters' sizes, BUF is in canonical form, and the ARP cache is unique. -/
def tablesInv (s : State) : Prop :=
  s.sess.length = s.cfg.sessEntries ∧ s.arp.length = s.cfg.arpEntries ∧
    Memory.wf s.cfg.bufSize s.buf = true ∧ arpUnique s.arp

theorem tablesInv_of_nseInv {s : State} (hs : NseInv s) : tablesInv s :=
  ⟨hs.sessLength, hs.arpLength, hs.bufWf, hs.arpUnique⟩

@[simp] theorem tablesInv_complete {s : State} (code : ErrCode) :
    tablesInv (s.complete code) ↔ tablesInv s := Iff.rfl

@[simp] theorem tablesInv_setRes {s : State} (i : Fin 8) (v : Word) :
    tablesInv (s.setRes i v) ↔ tablesInv s := Iff.rfl

@[simp] theorem tablesInv_setScb {s : State} (sel : Byte) (b : Scb) :
    tablesInv (s.setScb sel b) ↔ tablesInv s := by simp [tablesInv]

@[simp] theorem tablesInv_setSums {s : State} (sum : Half) :
    tablesInv (s.setSums sum) ↔ tablesInv s := by simp [State.setSums]

@[simp] theorem tablesInv_setLookup {s : State} (hit : Option Nat) :
    tablesInv (s.setLookup hit) ↔ tablesInv s := by
  cases hit <;> simp [State.setLookup]

@[simp] theorem tablesInv_setEntry {s : State} (e : ArpEntry) :
    tablesInv (s.setEntry e) ↔ tablesInv s := by simp [State.setEntry]

@[simp] theorem tablesInv_setFound {s : State} (index code : Word) :
    tablesInv (s.setFound index code) ↔ tablesInv s := by simp [State.setFound]

@[simp] theorem tablesInv_allocate {s : State} (j : Nat) (x : Tuple) :
    tablesInv (s.allocate j x) ↔ tablesInv s := by simp [tablesInv, State.allocate]

theorem tablesInv_arpUpsert {s : State} (ip : Word) (mac : Mac) (hs : tablesInv s) :
    tablesInv (s.arpUpsert ip mac) := by
  obtain ⟨i, code, -, ht, h⟩ | ⟨code, h⟩ := arpUpsert_cases s ip mac
  · obtain ⟨hsess, harp, hbuf, huniq⟩ := hs
    rw [h]
    exact ⟨hsess, by simpa using harp, hbuf, arpUnique_set huniq fun j f => arpTarget_of_ip huniq ht⟩
  · rw [h]
    exact hs

/-- A frame inside BUF keeps the tables and the canonical form of BUF. -/
theorem tablesInv_emit {s : State} (sel : Byte) {p : Proto} {b : Scb} {o cap : Nat} {e : Ends}
    {payload : List Byte} (hr : builderRangesOk s.cfg p b o cap = true) (hcap : frameLen p b ≤ cap)
    (hp : payloadBytes s.buf p b = some payload) (hs : tablesInv s) :
    tablesInv (s.emit sel p b o (frameBytes s.cfg s.now p b e payload)) := by
  obtain ⟨hsess, harp, hbuf, huniq⟩ := hs
  obtain ⟨ho, -, -⟩ := builderRangesOk_iff.mp hr
  have hlen := frameBytes_length s.cfg s.now e (payloadBytes_length hp)
  have hwf : Memory.wf s.cfg.bufSize (Memory.writeBytes s.buf o (frameBytes s.cfg s.now p b e payload)) = true :=
    writeBytes_wf _ (by omega) hbuf
  simpa [tablesInv] using ⟨hsess, harp, hwf, huniq⟩

/-- A command that answers a next state completes, and keeps the tables and BUF in form. -/
theorem exec_completes {i : Instr} {s t : State} (h : exec i s = .next t) :
    ∃ u code, t = u.complete code ∧ (tablesInv s → tablesInv u) := by
  cases i with
  | nop => exact ⟨_, _, execNop_cases h, id⟩
  | csum => obtain ⟨-, rfl⟩ | ⟨_, -, -, rfl⟩ := execCsum_cases h <;> exact ⟨_, _, rfl, by simp⟩
  | csumFixup w => exact ⟨_, _, execCsumFixup_cases h, by simp⟩
  | csumPseudo => obtain ⟨-, rfl⟩ | ⟨_, -, -, -, rfl⟩ := execCsumPseudo_cases h <;> exact ⟨_, _, rfl, by simp⟩
  | arpLookup => exact ⟨_, _, execArpLookup_cases h, by simp⟩
  | arpUpdate => exact ⟨_, _, execArpUpdate_cases h, tablesInv_arpUpsert _ _⟩
  | arpRead => obtain ⟨-, rfl⟩ | ⟨_, -, rfl⟩ := execArpRead_cases h <;> exact ⟨_, _, rfl, by simp⟩
  | build =>
    obtain ⟨-, rfl⟩ | ⟨_, -, ⟨-, rfl⟩ | ⟨_, -, ⟨-, rfl⟩ | ⟨hr, ⟨-, rfl⟩ | ⟨hcap, _, hp, rfl⟩⟩⟩⟩ :=
      execBuild_cases h
    case inr.inr.inr.inr => exact ⟨_, _, rfl, tablesInv_emit _ hr hcap hp⟩
    all_goals exact ⟨_, _, rfl, id⟩
  | reply =>
    obtain ⟨-, rfl⟩ | ⟨_, -, ⟨-, rfl⟩ | ⟨⟨-, hr⟩, ⟨-, rfl⟩ | ⟨_, -, ⟨-, rfl⟩ | ⟨hcap, _, _, -, hp, rfl⟩⟩⟩⟩ :=
      execReply_cases h
    case inr.inr.inr.inr => exact ⟨_, _, rfl, tablesInv_emit _ hr hcap hp⟩
    all_goals exact ⟨_, _, rfl, id⟩
  | sessFind syn =>
    obtain ⟨_, -, rfl⟩ | ⟨-, ⟨-, rfl⟩ | ⟨-, _, -, rfl⟩ | ⟨-, -, rfl⟩⟩ := execSessFind_cases h <;>
      exact ⟨_, _, rfl, by simp⟩
  | sessRead =>
    obtain ⟨-, rfl⟩ | ⟨_, -, ⟨_, rfl⟩ | rfl⟩ := execSessRead_cases h <;> exact ⟨_, _, rfl, by simp⟩
  | sessWrite stamp =>
    obtain ⟨-, rfl⟩ | ⟨_, -, ⟨-, rfl⟩ | ⟨_, -, rfl⟩⟩ := execSessWrite_cases h <;> exact ⟨_, _, rfl, by simp⟩
  | sessFree => obtain ⟨-, rfl⟩ | ⟨_, -, rfl⟩ := execSessFree_cases h <;> exact ⟨_, _, rfl, by simp⟩

/-! ### The invariant through every event -/

/-- A completed command's state has the invariant once its tables are in form: with BUSY and `pending` clear, the
handshake's part of the invariant says nothing more. -/
theorem nseInv_complete {s u : State} (code : ErrCode) (hs : NseInv s)
    (hframe : sameOutsideCommand s (u.complete code)) (htab : tablesInv u) : NseInv (u.complete code) := by
  obtain ⟨hcfg, -, -, -, -, -, -, -, -, -, -, -, hnow, htick, -⟩ := hframe
  obtain ⟨hsess, harp, hbuf, huniq⟩ := htab
  exact {
    cfgLegal := hcfg ▸ hs.cfgLegal
    sessLength := hsess
    arpLength := harp
    bufWf := hbuf
    pendingIsBusy := rfl
    busyNotDone := nofun
    busyNoError := nofun
    pendingLatched := nofun
    arpUnique := huniq
    tickInRange := by rw [htick, hcfg]; exact hs.tickInRange
    nowInRange := by rw [hnow, hcfg]; exact hs.nowInRange }

theorem engineStep_keeps_nseInv {s t : State} (h : engineStep s = .next t) (hs : NseInv s) : NseInv t := by
  obtain ⟨-, _, -, hx⟩ | ⟨-, -, rfl⟩ | ⟨-, rfl⟩ := engineStep_cases h
  · obtain ⟨u, code, rfl, htab⟩ := exec_completes hx
    exact nseInv_complete code hs (exec_sameOutsideCommand hx) (htab (tablesInv_of_nseInv hs))
  · exact nseInv_complete _ hs (by simp) (tablesInv_of_nseInv hs)
  · exact hs

theorem tickOnce_keeps_nseInv {s : State} (hs : NseInv s) : NseInv s.tickOnce :=
  { hs with tickInRange := tickValue_lt _ _ }

theorem resetNse_keeps_nseInv {s : State} (hs : NseInv s) : NseInv s.resetNse :=
  { hs with
    sessLength := List.length_replicate
    arpLength := List.length_replicate
    pendingIsBusy := rfl
    busyNotDone := nofun
    busyNoError := nofun
    pendingLatched := nofun
    arpUnique := arpUnique_replicate_zero _
    nowInRange := Nat.two_pow_pos _ }

/-- An accepted word starts the handshake anew; an overrun only sets OVR (R221, R229). -/
theorem writeCmd_keeps_nseInv {s : State} (w : Word) (hs : NseInv s) : NseInv (s.writeCmd w) := by
  unfold State.writeCmd
  split
  · exact { hs with }
  · exact { hs with
      pendingIsBusy := rfl
      busyNotDone := fun _ => rfl
      busyNoError := fun _ => rfl
      pendingLatched := fun _ => rfl
      nowInRange := hs.tickInRange }

theorem writeStatus_keeps_nseInv {s : State} (v : Word) (hs : NseInv s) : NseInv (s.writeStatus v) :=
  { hs with busyNotDone := fun hb => by simp [State.writeStatus, hs.busyNotDone hb] }

theorem writeCtrl_keeps_nseInv {s : State} (v : Word) (hs : NseInv s) : NseInv (s.writeCtrl v) := by
  unfold State.writeCtrl
  split
  · exact resetNse_keeps_nseInv hs
  · exact { hs with }

theorem writeReg_keeps_nseInv {s : State} (r : Reg) (v : Word) (hs : NseInv s) : NseInv (s.writeReg r v) := by
  cases r with
  | cmd => exact writeCmd_keeps_nseInv v hs
  | status => exact writeStatus_keeps_nseInv v hs
  | ctrl => exact writeCtrl_keeps_nseInv v hs
  | _ => exact { hs with }

theorem readBuf_keeps_nseInv {s : State} (a : Nat) (hs : NseInv s) : NseInv (s.readBuf a) := by
  unfold State.readBuf
  split <;> exact { hs with }

theorem writeBuf_keeps_nseInv {s : State} {a : Nat} (b : Byte) (ha : a < s.cfg.bufSize) (hs : NseInv s) :
    NseInv (s.writeBuf a b) :=
  { hs with bufWf := write_wf b ha hs.bufWf }

theorem hostAccess_keeps_nseInv {a : HostAccess} {s t : State} (h : hostAccess a s = .next t) (hs : NseInv s) :
    NseInv t := by
  obtain ⟨_, _, _, -, -, rfl⟩ | ⟨_, _, _, _, -, -, rfl⟩ | ⟨_, -, -, -, rfl⟩ | ⟨_, _, -, -, hx, rfl⟩ :=
    hostAccess_cases h
  · exact { hs with }
  · exact writeReg_keeps_nseInv _ _ hs
  · exact readBuf_keeps_nseInv _ hs
  · exact writeBuf_keeps_nseInv _ hx hs

theorem perform_keeps_nseInv {e : Event} {s t : State} (h : perform e s = .next t) (hs : NseInv s) :
    NseInv t := by
  obtain ⟨-, hx⟩ | ⟨-, rfl⟩ | ⟨-, rfl⟩ | ⟨_, -, ha⟩ := perform_cases h
  · exact engineStep_keeps_nseInv hx hs
  · exact tickOnce_keeps_nseInv hs
  · exact resetNse_keeps_nseInv hs
  · exact hostAccess_keeps_nseInv ha hs

theorem withAgenda_keeps_nseInv {s : State} (rest : List Event) (hs : NseInv s) : NseInv (s.withAgenda rest) :=
  { hs with }

/-- Every step keeps the invariant: the agenda is no part of it, and each event keeps it. -/
theorem step_keeps_nseInv {s t : State} (h : step s = .next t) (hs : NseInv s) : NseInv t := by
  obtain ⟨-, hx⟩ | ⟨_, rest, -, hp⟩ := step_cases h
  · exact engineStep_keeps_nseInv hx hs
  · exact perform_keeps_nseInv hp (withAgenda_keeps_nseInv rest hs)

/-! ### Words put together from fields (R23, R28) -/

/-- A concatenation as a number: the high part above the low part. -/
theorem toNat_append_add {m n : Nat} (x : BitVec m) (y : BitVec n) :
    (x ++ y).toNat = 2 ^ n * x.toNat + y.toNat := by
  rw [BitVec.toNat_append, ← Nat.shiftLeft_add_eq_or_of_lt y.isLt, Nat.shiftLeft_eq, Nat.mul_comm]

@[simp] theorem bit_toNat (b : Bool) : (bit b).toNat = b.toNat := by cases b <;> rfl

/-- CAPS as a number, its fields wide enough for every legal parameter (R28). -/
theorem capsWord_toNat {c : Config} (h : c.legal = true) :
    (capsWord c).toNat = c.sessEntries + 2 ^ 8 * c.arpEntries + 2 ^ 16 * c.bufBits := by
  obtain ⟨-, hsess, -, -, harp, -, -, hbits, -, -⟩ := legal_iff.mp h
  simp only [capsWord, toNat_append_add, BitVec.toNat_ofNat]
  omega

/-- STATUS as a number: its fields at bits 0, 1, 2 and 11:8 (R23). -/
theorem statusWord_toNat (s : State) :
    s.statusWord.toNat = s.busy.toNat + 2 * s.done.toNat + 4 * s.ovr.toNat + 256 * s.shownErr.code.toNat := by
  simp only [State.statusWord, toNat_append_add, BitVec.toNat_ofBool, BitVec.toNat_ofNat]
  omega

/-! ### Accesses to REG (R21, R31) -/

/-- The agenda shows in no register. -/
@[simp] theorem regValue_withAgenda (s : State) (rest : List Event) (r : Reg) :
    (s.withAgenda rest).regValue r = s.regValue r := by
  cases r <;> rfl

/-- A host read of a register records the value, and does nothing else. -/
theorem step_regRead {s : State} {width off : Nat} {r : Reg} {rest : List Event}
    (ha : s.agenda = .host (.regRead width off) :: rest) (hr : regAt width off = some r) :
    step s = .next { s with hostData := s.regValue r, agenda := rest } := by
  simp only [step, ha, perform, hostAccess, hr, regValue_withAgenda]
  rfl

/-- A host write to a register. -/
theorem step_regWrite {s : State} {width off : Nat} {v : Word} {r : Reg} {rest : List Event}
    (ha : s.agenda = .host (.regWrite width off v) :: rest) (hr : regAt width off = some r) :
    step s = .next ((s.withAgenda rest).writeReg r v) := by
  simp only [step, ha, perform, hostAccess, hr]

/-- A write to STATUS with 0 in bits 1 and 2 clears nothing (R23). -/
theorem writeStatus_of_clear {s : State} {v : Word} (h1 : v.getLsbD 1 = false) (h2 : v.getLsbD 2 = false) :
    s.writeStatus v = s := by
  simp only [State.writeStatus, h1, h2, Bool.not_false, Bool.and_true]

/-- A write to CTRL with SRST = 0 writes IE alone (R24). -/
theorem writeCtrl_of_noReset {s : State} {v : Word} (h : v.getLsbD 1 = false) :
    s.writeCtrl v = { s with ie := v.getLsbD 0 } := by
  simp only [State.writeCtrl, h, Bool.false_eq_true, if_false]

/-- HOST_IP, HOST_MASK and ARG read back what was written (R25, R29). -/
theorem regValue_writeReg_same (s : State) {r : Reg} (v : Word)
    (hr : r = .hostIp ∨ r = .hostMask ∨ ∃ i, r = .arg i) : (s.writeReg r v).regValue r = v := by
  obtain rfl | rfl | ⟨i, rfl⟩ := hr
  · rfl
  · rfl
  · exact getElem_set_same _ _ _

/-- A write to HOST_IP, HOST_MASK or ARG shows in no other register. -/
theorem regValue_writeReg_other (s : State) {r q : Reg} (v : Word)
    (hr : r = .hostIp ∨ r = .hostMask ∨ ∃ i, r = .arg i) (hq : q ≠ r) :
    (s.writeReg r v).regValue q = s.regValue q := by
  obtain rfl | rfl | ⟨i, rfl⟩ := hr
  · cases q with
    | hostIp => exact absurd rfl hq
    | _ => rfl
  · cases q with
    | hostMask => exact absurd rfl hq
    | _ => rfl
  · cases q with
    | arg k => exact getElem_set_other _ _ fun e => hq (by rw [e])
    | _ => rfl

/-- A write to HOST_IP, HOST_MASK or ARG changes nothing else. -/
theorem writeReg_frame (s : State) {r : Reg} (v : Word)
    (hr : r = .hostIp ∨ r = .hostMask ∨ ∃ i, r = .arg i) :
    s.writeReg r v =
      { s with
        hostIp := (s.writeReg r v).hostIp, hostMask := (s.writeReg r v).hostMask,
        args := (s.writeReg r v).args } := by
  obtain rfl | rfl | ⟨i, rfl⟩ := hr <;> rfl

/-! ### ARP_LOOKUP's answer (R121, R122) and ages (R45) -/

/-- ARP_LOOKUP may answer with the entry: it is valid, of the address, and fresh. -/
def ArpEntry.answers (c : Config) (now ip : Word) (e : ArpEntry) : Prop :=
  e.valid = true ∧ e.ip = ip ∧ age c now e.tick ≤ c.arpFresh

/-- The predicate ARP_LOOKUP searches by. -/
theorem arpEntry_answers_iff {c : Config} {now ip : Word} {e : ArpEntry} :
    ((e.valid && e.ip == ip) && e.fresh c now) = true ↔ e.answers c now ip := by
  simp only [ArpEntry.answers, ArpEntry.fresh, Bool.and_eq_true, beq_iff_eq, decide_eq_true_eq]
  constructor
  · rintro ⟨⟨hv, hip⟩, -, hage⟩
    exact ⟨hv, hip, hage⟩
  · rintro ⟨hv, hip, hage⟩
    exact ⟨⟨hv, hip⟩, hv, hage⟩

theorem arpHit_eq_some {s : State} {ip : Word} {i : Nat} :
    s.arpHit ip = some i ↔
      ∃ e, s.arp[i]? = some e ∧ e.answers s.cfg s.now ip ∧
        ∀ j f, j < i → s.arp[j]? = some f → ¬ f.answers s.cfg s.now ip := by
  simp only [State.arpHit, lowest_eq_some, arpEntry_answers_iff, ← Bool.not_eq_true]

theorem arpHit_eq_none {s : State} {ip : Word} :
    s.arpHit ip = none ↔ ∀ e ∈ s.arp, ¬ e.answers s.cfg s.now ip := by
  simp only [State.arpHit, lowest_eq_none, arpEntry_answers_iff, ← Bool.not_eq_true]

theorem arpAt_of_getElem? {s : State} {i : Nat} {e : ArpEntry} (h : s.arp[i]? = some e) : s.arpAt i = e := by
  simp [State.arpAt, List.getD_eq_getElem?_getD, h]

/-- At 32 bits the age is the difference of the two ticks modulo 2^32. -/
theorem age_of_32_int {c : Config} (h : c.tickBits = 32) (now t : Word) :
    (age c now t : Int) = ((now.toNat : Int) - (t.toNat : Int)) % 2 ^ 32 := by
  rw [age_of_32 h, BitVec.toNat_sub]
  omega

/-! ### Selectors (R34) -/

/-- The selectors below the table's size, and 0xFF, name an SCB, and no other does. -/
theorem scb?_isSome {s : State} {sel : Byte} :
    (s.scb? sel).isSome = true ↔ sel.toNat < s.sess.length ∨ sel = 0xFF#8 := by
  by_cases h : sel = 0xFF#8
  · simp [h]
  · simp [scb?_slot s h, h]

/-- A command that selects an SCB raises BAD_INDEX where its selector names none. -/
theorem exec_badIndex {i : Instr} {s : State} (h : s.scb? (s.argByte 0) = none)
    (hi : i = .build ∨ i = .reply ∨ i = .sessRead ∨ (∃ stamp, i = .sessWrite stamp) ∨ i = .sessFree) :
    exec i s = .next (s.complete .badIndex) := by
  obtain rfl | rfl | rfl | ⟨stamp, rfl⟩ | rfl := hi
  · simp [exec, execBuild, h]
  · simp [exec, execReply, h]
  · simp [exec, execSessRead, h]
  · simp [exec, execSessWrite, h]
  · simp [exec, execSessFree, h]

/-! ### SCB fields (R33, R35) -/

theorem scbField_ofIndex_eq_none {k : Byte} (h : 26 ≤ k.toNat) : ScbField.ofIndex k = none := by
  unfold ScbField.ofIndex
  split
  on_goal 27 => rfl
  all_goals exact absurd h (by decide)

/-- The low bits of a value, cut to a field's width and zero-extended. -/
theorem setWidth_setWidth_toNat (w : Nat) (v : Word) :
    ((v.setWidth w).setWidth 32).toNat = v.toNat % 2 ^ w := by
  rw [BitVec.toNat_setWidth, BitVec.toNat_setWidth]
  exact Nat.mod_eq_of_lt (Nat.lt_of_le_of_lt (Nat.mod_le _ _) v.isLt)

theorem bit_getLsbD_zero_toNat (v : Word) : (bit (v.getLsbD 0)).toNat = v.toNat % 2 := by
  rw [bit_toNat, BitVec.getLsbD, Nat.toNat_testBit]
  simp

/-- A field reads as the low bits of what was written to it: one bit, the whole word, or 8 or 16 bits. -/
theorem scb_get_put_same (b : Scb) (f : ScbField) (v : Word) :
    ((b.put f v).get f).toNat = v.toNat % 2 ^ f.width := by
  cases f with
  | valid | sockOpen | fragOk => exact bit_getLsbD_zero_toNat v
  | lip | rip | seq | ack | lastTick | txptr | rxptr | lmacLo | rmacLo => exact (Nat.mod_eq_of_lt v.isLt).symm
  | _ => exact setWidth_setWidth_toNat _ v

/-- A write to one field leaves every other as it was. -/
theorem scb_get_put_other (b : Scb) {f g : ScbField} (v : Word) (h : g ≠ f) : (b.put f v).get g = b.get g := by
  cases f <;> cases g <;> trivial

end Sys2Proof.Machine

namespace Sys2Proof.Proofs

open Sys2Proof Sys2Proof.Machine Sys2Proof.Safety

/-- Settles O58: the parameters and the invariant, each followed through every event. -/
theorem stepKeepsInvariant : Obligations.StepKeepsInvariant :=
  fun _ _ h => ⟨step_cfg h, step_keeps_nseInv h⟩

/-- Settles O34, from what the search for a valid fresh entry answers. -/
theorem arpLookupResult : Obligations.ArpLookupResult := by
  refine ⟨rfl, fun s => ⟨fun i e he hv hip hage hlow => ?_, fun hmiss => ?_, fun c now t h => ?_⟩⟩
  · have hhit : s.arpHit (s.arg 0) = some i := arpHit_eq_some.mpr ⟨e, he, ⟨hv, hip, hage⟩, hlow⟩
    simp [exec, execArpLookup, hhit, State.setLookup, arpAt_of_getElem? he, macHigh, macLow]
  · have hnone : s.arpHit (s.arg 0) = none := arpHit_eq_none.mpr hmiss
    simp [exec, execArpLookup, hnone, State.setLookup, noIndex]
  · exact age_of_32_int h now t

/-- Settles O15: the map is evaluated at its 64 words, CAPS is taken apart into its fields. -/
theorem registerMapIdAndCaps : Obligations.RegisterMapIdAndCaps := by
  refine ⟨rfl, rfl, rfl, rfl, rfl, rfl, rfl, rfl, by decide, by decide, by decide, fun s => ?_, fun s => rfl,
    fun s h => capsWord_toNat h⟩
  exact ⟨rfl, rfl, rfl, rfl, fun i => rfl, fun i => rfl, rfl⟩

/-- Settles O16: the registers a write leaves alone, and the one field a read records. -/
theorem readOnlyWritesAndReadsHaveNoEffect : Obligations.ReadOnlyWritesAndReadsHaveNoEffect := by
  refine ⟨fun s rest off v r ha hr hro => ?_, fun s rest off r ha hr => step_regRead ha hr⟩
  rw [step_regWrite ha hr]
  obtain rfl | rfl | rfl | rfl | ⟨i, rfl⟩ | ⟨rfl, h1, h2⟩ := hro
  case inr.inr.inr.inr.inr => exact congrArg _ (writeStatus_of_clear h1 h2)
  all_goals rfl

/-- Settles O17, from the writes to STATUS and CTRL and the fields of the two words. -/
theorem statusAndCtrlBits : Obligations.StatusAndCtrlBits := by
  refine ⟨fun s v rest ha => step_regWrite ha rfl, fun s v rest ha h => ?_, statusWord_toNat,
    fun s => bit_toNat s.ie, rfl, rfl, rfl, rfl, rfl, rfl, rfl, rfl, rfl⟩
  rw [step_regWrite ha rfl]
  exact congrArg _ (writeCtrl_of_noReset h)

/-- Settles O18: one write reads back, shows nowhere else, and has the frame of its register. -/
theorem writableRegistersReadBack : Obligations.WritableRegistersReadBack := by
  intro s v rest off r ha hr hw
  refine ⟨_, step_regWrite ha hr, regValue_writeReg_same _ v hw, fun q hq => ?_, writeReg_frame _ v hw⟩
  rw [regValue_writeReg_other _ v hw hq, regValue_withAgenda]

/-- Settles O39: under the invariant slot numbers stay below 0xFF. -/
theorem selectorsNameScbs : Obligations.SelectorsNameScbs := by
  intro s sel hs
  obtain ⟨-, hle, -⟩ := legal_iff.mp hs.cfgLegal
  refine ⟨hs.sessLength ▸ scb?_isSome, fun hlt => scb?_slot s ?_, scb?_outbound s, ?_, fun h i => exec_badIndex h⟩
  · rintro rfl
    have : (0xFF#8).toNat = 255 := rfl
    omega
  · simp [State.argByte, BitVec.extractLsb'_toNat]

/-- Settles O40, by cases on the field written and the field read. -/
theorem scbFieldsTruncate : Obligations.ScbFieldsTruncate := by
  refine ⟨rfl, rfl, fun k => scbField_ofIndex_eq_none, fun b f v =>
    ⟨scb_get_put_same b f v, fun g => scb_get_put_other b v, ?_⟩⟩
  simp only [Scb.get, and_self]

end Sys2Proof.Proofs

/-! ## Proofs: memory (spec 20_memory.md) -/

namespace Sys2Proof.Machine

open Sys2Proof Sys2Proof.Safety

/-! ### What a command can write (R40, R60, R86, R160)

A command's effect, before its completion, is made of updates its class allows, so a frame over all commands is an
induction over these updates. -/

/-- `u` comes from `s` by updates that the command `i` may make: to the RES registers R86 lists for it, and to the
storage that is its own. -/
inductive CommandWrites (i : Instr) (s : State) : State → Prop where
  | refl : CommandWrites i s s
  | res {u : State} (k : Fin 8) (v : Word) : k ∈ resultRegs i → CommandWrites i s u → CommandWrites i s (u.setRes k v)
  | bytes {u : State} (o : Nat) (bs : List Byte) : writesBuf i = true → CommandWrites i s u →
      CommandWrites i s { u with buf := Memory.writeBytes u.buf o bs }
  | arp {u : State} (j : Nat) (e : ArpEntry) : writesArp i = true → CommandWrites i s u →
      CommandWrites i s (u.setArp j e)
  | scb {u : State} (sel : Byte) (b : Scb) : writesScb i = true → CommandWrites i s u →
      CommandWrites i s (u.setScb sel b)
  | slot {u : State} (j : Nat) (x : Tuple) : i = .sessFind true → CommandWrites i s u →
      CommandWrites i s (u.allocate j x)

section CommandWrites

variable {i : Instr} {s u : State}

theorem CommandWrites.setSums (h : CommandWrites i s u) (sum : Half) (h0 : 0 ∈ resultRegs i)
    (h1 : 1 ∈ resultRegs i) : CommandWrites i s (u.setSums sum) :=
  .res 1 _ h1 (.res 0 _ h0 h)

theorem CommandWrites.setFound (h : CommandWrites i s u) (index code : Word) (h0 : 0 ∈ resultRegs i)
    (h1 : 1 ∈ resultRegs i) : CommandWrites i s (u.setFound index code) :=
  .res 1 _ h1 (.res 0 _ h0 h)

theorem CommandWrites.emit (h : CommandWrites i s u) (hi : i = .build ∨ i = .reply) (sel : Byte) (p : Proto)
    (b : Scb) (o : Nat) (frame : List Byte) : CommandWrites i s (u.emit sel p b o frame) := by
  have listed : ∀ k : Fin 8, k ∈ [0, 1, 2, 3] → k ∈ resultRegs i := by
    obtain rfl | rfl := hi <;> exact fun _ => id
  have buf : writesBuf i = true := by obtain rfl | rfl := hi <;> rfl
  have scb : writesScb i = true := by obtain rfl | rfl := hi <;> rfl
  exact .res 3 _ (listed 3 (by decide)) <| .res 2 _ (listed 2 (by decide)) <| .res 1 _ (listed 1 (by decide)) <|
    .res 0 _ (listed 0 (by decide)) <| .scb _ _ scb <| .bytes _ _ buf h

theorem commandWrites_setLookup (hit : Option Nat) : CommandWrites .arpLookup s (s.setLookup hit) := by
  cases hit <;>
    exact .res 3 _ (by decide) <| .res 2 _ (by decide) <| .res 1 _ (by decide) <| .res 0 _ (by decide) .refl

theorem commandWrites_setEntry (e : ArpEntry) : CommandWrites .arpRead s (s.setEntry e) :=
  .res 5 _ (by decide) <| .res 4 _ (by decide) <| .res 3 _ (by decide) <| .res 2 _ (by decide) <|
    .res 1 _ (by decide) <| .res 0 _ (by decide) .refl

theorem commandWrites_arpUpsert (ip : Word) (mac : Mac) : CommandWrites .arpUpdate s (s.arpUpsert ip mac) := by
  obtain ⟨j, code, -, -, h⟩ | ⟨code, h⟩ := arpUpsert_cases s ip mac
  · rw [h]
    exact .res 1 _ (by decide) <| .res 0 _ (by decide) <| .arp _ _ rfl .refl
  · rw [h]
    exact .res 1 _ (by decide) <| .res 0 _ (by decide) .refl

/-- A command that answers a next state makes updates of its class, and completes. -/
theorem exec_commandWrites {t : State} (h : exec i s = .next t) :
    ∃ u code, CommandWrites i s u ∧ t = u.complete code := by
  cases i with
  | nop => exact ⟨_, _, .refl, execNop_cases h⟩
  | csum =>
    obtain ⟨-, rfl⟩ | ⟨_, -, -, rfl⟩ := execCsum_cases h
    · exact ⟨_, _, .refl, rfl⟩
    · exact ⟨_, _, .setSums .refl _ (by decide) (by decide), rfl⟩
  | csumFixup w => exact ⟨_, _, .res 0 _ (List.mem_singleton_self 0) .refl, execCsumFixup_cases h⟩
  | csumPseudo =>
    obtain ⟨-, rfl⟩ | ⟨_, -, -, -, rfl⟩ := execCsumPseudo_cases h
    · exact ⟨_, _, .refl, rfl⟩
    · exact ⟨_, _, .setSums .refl _ (by decide) (by decide), rfl⟩
  | arpLookup => exact ⟨_, _, commandWrites_setLookup _, execArpLookup_cases h⟩
  | arpUpdate => exact ⟨_, _, commandWrites_arpUpsert _ _, execArpUpdate_cases h⟩
  | arpRead =>
    obtain ⟨-, rfl⟩ | ⟨_, -, rfl⟩ := execArpRead_cases h
    · exact ⟨_, _, .refl, rfl⟩
    · exact ⟨_, _, commandWrites_setEntry _, rfl⟩
  | build =>
    obtain ⟨-, rfl⟩ | ⟨_, -, ⟨-, rfl⟩ | ⟨_, -, ⟨-, rfl⟩ | ⟨-, ⟨-, rfl⟩ | ⟨-, _, -, rfl⟩⟩⟩⟩ := execBuild_cases h
    case inr.inr.inr.inr => exact ⟨_, _, .emit .refl (.inl rfl) _ _ _ _ _, rfl⟩
    all_goals exact ⟨_, _, .refl, rfl⟩
  | reply =>
    obtain ⟨-, rfl⟩ | ⟨_, -, ⟨-, rfl⟩ | ⟨-, ⟨-, rfl⟩ | ⟨_, -, ⟨-, rfl⟩ | ⟨-, _, _, -, -, rfl⟩⟩⟩⟩ :=
      execReply_cases h
    case inr.inr.inr.inr => exact ⟨_, _, .emit .refl (.inr rfl) _ _ _ _ _, rfl⟩
    all_goals exact ⟨_, _, .refl, rfl⟩
  | sessFind syn =>
    have h0 : (0 : Fin 8) ∈ resultRegs (.sessFind syn) := List.mem_cons_self
    have h1 : (1 : Fin 8) ∈ resultRegs (.sessFind syn) := List.mem_cons_of_mem _ List.mem_cons_self
    obtain ⟨_, -, rfl⟩ | ⟨-, ⟨-, rfl⟩ | ⟨rfl, j, -, rfl⟩ | ⟨-, -, rfl⟩⟩ := execSessFind_cases h
    case inr.inr.inl => exact ⟨_, _, .setFound (.slot j _ rfl .refl) _ _ h0 h1, rfl⟩
    all_goals exact ⟨_, _, .setFound .refl _ _ h0 h1, rfl⟩
  | sessRead =>
    obtain ⟨-, rfl⟩ | ⟨_, -, ⟨_, rfl⟩ | rfl⟩ := execSessRead_cases h
    case inr.inl => exact ⟨_, _, .res 0 _ (by decide) .refl, rfl⟩
    all_goals exact ⟨_, _, .refl, rfl⟩
  | sessWrite stamp =>
    obtain ⟨-, rfl⟩ | ⟨_, -, ⟨-, rfl⟩ | ⟨_, -, rfl⟩⟩ := execSessWrite_cases h
    case inr.inr => exact ⟨_, _, .scb _ _ rfl .refl, rfl⟩
    all_goals exact ⟨_, _, .refl, rfl⟩
  | sessFree =>
    obtain ⟨-, rfl⟩ | ⟨_, -, rfl⟩ := execSessFree_cases h
    · exact ⟨_, _, .refl, rfl⟩
    · exact ⟨_, _, .scb _ _ rfl .refl, rfl⟩

/-- BUF stays but for the builder's commands (R60). -/
theorem CommandWrites.buf_eq (h : CommandWrites i s u) (hi : writesBuf i = false) : u.buf = s.buf := by
  induction h with
  | refl => rfl
  | bytes _ _ hb => exact absurd hb (by simp [hi])
  | scb _ _ _ _ ih => rwa [setScb_buf]
  | slot _ _ _ _ ih => rwa [State.allocate, takeIsn_buf]
  | res _ _ _ _ ih | arp _ _ _ _ ih => exact ih

/-- The ARP cache stays but for ARP_UPDATE (R40). -/
theorem CommandWrites.arp_eq (h : CommandWrites i s u) (hi : writesArp i = false) : u.arp = s.arp := by
  induction h with
  | refl => rfl
  | arp _ _ ha => exact absurd ha (by simp [hi])
  | scb _ _ _ _ ih => rwa [setScb_arp]
  | slot _ _ _ _ ih => rwa [State.allocate, takeIsn_arp]
  | res _ _ _ _ ih | bytes _ _ _ _ ih => exact ih

/-- The SCBs stay but for the commands that own one (R160, R186 to R189). -/
theorem CommandWrites.scbs_eq (h : CommandWrites i s u) (hi : writesScb i = false) :
    u.sess = s.sess ∧ u.oscb = s.oscb := by
  induction h with
  | refl => exact ⟨rfl, rfl⟩
  | scb _ _ hs => exact absurd hs (by simp [hi])
  | slot _ _ hf => exact absurd hi (by simp [hf, writesScb])
  | res _ _ _ _ ih | bytes _ _ _ _ ih | arp _ _ _ _ ih => exact ih

/-- The ISN source stays but for a SYN's SESS_FIND (R186). -/
theorem CommandWrites.isn_eq (h : CommandWrites i s u) (hi : i ≠ .sessFind true) :
    u.isnInputs = s.isnInputs ∧ u.isnDraws = s.isnDraws := by
  induction h with
  | refl => exact ⟨rfl, rfl⟩
  | slot _ _ hf => exact absurd hf hi
  | scb _ _ _ _ ih => rwa [setScb_isnInputs, setScb_isnDraws]
  | res _ _ _ _ ih | bytes _ _ _ _ ih | arp _ _ _ _ ih => exact ih

end CommandWrites

/-! ### Refused accesses to REG (R67) -/

theorem regAt_eq_none {width off : Nat} (h : ¬ (width = 4 ∧ off % 4 = 0 ∧ off < 256)) : regAt width off = none :=
  if_neg h

/-- A register access that reaches no register is refused. -/
theorem step_regAccess_refused {s : State} {width off : Nat} {v : Word} {rest : List Event}
    (hr : regAt width off = none)
    (ha : s.agenda = .host (.regRead width off) :: rest ∨ s.agenda = .host (.regWrite width off v) :: rest) :
    step s = .refused .badRegAccess := by
  obtain ha | ha := ha
  · simp only [step, ha, perform, hostAccess, hr]
  · simp only [step, ha, perform, hostAccess, hr]

/-! ### The host's BUF port (R62, R256) -/

theorem bufPort_idle {s : State} {a : Nat} (t : State) (hb : s.busy = false) (ha : a < s.cfg.bufSize) :
    bufPort s a t = .next t := by
  simp [bufPort, hb, ha]

theorem bufPort_busy {s : State} (a : Nat) (t : State) (hb : s.busy = true) :
    bufPort s a t = .fault .bufWhileBusy := by
  simp [bufPort, hb]

/-- A host read of a byte that was written records it, and does nothing else. -/
theorem readBuf_of_some {s : State} {a : Nat} {b : Byte} (h : Memory.read s.buf a = some b) :
    s.readBuf a = { s with hostData := b.setWidth 32 } := by
  simp only [State.readBuf, h]

/-! ### Reads of a never-written byte (R79) -/

/-- A range with a never-written byte does not read. -/
theorem readBytes_eq_none {m : List Host.Cell} {a n k : Nat} (hk : k < n) (h : Memory.read m (a + k) = none) :
    Memory.readBytes m a n = none := by
  refine Option.eq_none_iff_forall_ne_some.mpr fun bs hbs => ?_
  obtain ⟨hlen, hread⟩ := (readBytes_eq_some m n a bs).mp hbs
  have hnone : bs[k]? = none := (hread k hk).symm.trans h
  have := List.getElem?_eq_none_iff.mp hnone
  omega

theorem readNat_eq_none {m : List Host.Cell} {a n k : Nat} (hk : k < n) (h : Memory.read m (a + k) = none) :
    Memory.readNat m a n = none := by
  rw [Memory.readNat, readBytes_eq_none hk h, Option.map_none]

theorem readNat_one (m : List Host.Cell) (a : Nat) :
    Memory.readNat m a 1 = (Memory.read m a).map BitVec.toNat := by
  cases h : Memory.read m a <;> simp [Memory.readNat, Memory.readBytes, h, beNat]

theorem withBytes_fault {s : State} {a n k : Nat} (f : List Byte → Answer) (hk : k < n)
    (h : Memory.read s.buf (a + k) = none) : withBytes s a n f = .fault .unwrittenRead := by
  rw [withBytes, readBytes_eq_none hk h]

/-- A caller's payload with a never-written byte does not read. -/
theorem payloadBytes_eq_none {m : List Host.Cell} {p : Proto} {b : Scb} {k : Nat} (htx : b.txptr ≠ 0#32)
    (hk : k < payloadLen p b) (h : Memory.read m (b.txptr.toNat + k) = none) : payloadBytes m p b = none := by
  rw [payloadBytes, if_neg htx, readBytes_eq_none hk h]

theorem buildFrame_fault {s : State} {p : Proto} {b : Scb} (sel : Byte) (e : Ends) (o : Nat)
    (h : payloadBytes s.buf p b = none) : buildFrame s sel p b e o = .fault .unwrittenRead := by
  rw [buildFrame, h]

/-! ### CSUM, CSUM_PSEUDO and BUILD past their checks (R101, R107, R159) -/

theorem execCsum_inRange {s : State} (h : s.argNat 0 + s.argNat 1 ≤ s.cfg.bufSize) :
    execCsum s = withBytes s (s.argNat 0) (s.argNat 1) fun bs => succeed (s.setSums (ocsum (s.argLow 2) bs)) :=
  if_pos (rangeOk_iff.mpr h)

theorem execCsumPseudo_inRange {s : State} (hl : s.argNat 4 ≤ 0xFFFF)
    (h : s.argNat 3 + s.argNat 4 ≤ s.cfg.bufSize) :
    execCsumPseudo s = withBytes s (s.argNat 3) (s.argNat 4) fun bs =>
      succeed (s.setSums
        (pseudoSum (s.arg 0) (s.arg 1) (s.argByte 2) (BitVec.ofNat 16 (s.argNat 4)) bs)) :=
  (if_neg (by omega)).trans (if_pos (rangeOk_iff.mpr h))

/-- BUILD past its checks is the writing of the frame. -/
theorem execBuild_checked {s : State} {b : Scb} {p : Proto} (hb : s.scb? (s.argByte 0) = some b)
    (hp : Proto.ofNumber b.proto = some p)
    (hr : builderRangesOk s.cfg p b (s.argNat 1) (s.argNat 2) = true) (hcap : frameLen p b ≤ s.argNat 2) :
    execBuild s = buildFrame s (s.argByte 0) p b b.ends (s.argNat 1) := by
  simp only [execBuild, hb, hp, hr, if_true, if_neg (Nat.not_lt.mpr hcap)]

/-! ### REPLY's inbound checks (R155) -/

section InboundCheck

variable {m : List Host.Cell} {i ilen : Nat}

theorem inboundCheck_of_unwrittenType {k : Nat} (hl : 34 ≤ ilen) (hk : k < 2)
    (h : Memory.read m (i + 12 + k) = none) : inboundCheck m i ilen = .unwritten := by
  simp only [inboundCheck, if_neg (Nat.not_lt.mpr hl), readNat_eq_none hk h]

theorem readNat_ipv4Type (ht : Memory.readBytes m (i + 12) 2 = some [0x08#8, 0x00#8]) :
    Memory.readNat m (i + 12) 2 = some 0x0800 := by
  rw [Memory.readNat, ht]
  rfl

theorem inboundCheck_of_unwrittenVersion (hl : 34 ≤ ilen)
    (ht : Memory.readBytes m (i + 12) 2 = some [0x08#8, 0x00#8]) (h : Memory.read m (i + 14) = none) :
    inboundCheck m i ilen = .unwritten := by
  simp only [inboundCheck, if_neg (Nat.not_lt.mpr hl), readNat_ipv4Type ht, if_true, readNat_one, h,
    Option.map_none]

/-- Past the Ethernet type and the version byte, the protocol decides. -/
theorem inboundCheck_of_header {vh : Byte} (hl : 34 ≤ ilen)
    (ht : Memory.readBytes m (i + 12) 2 = some [0x08#8, 0x00#8]) (hv : Memory.read m (i + 14) = some vh)
    (h4 : vh.toNat / 16 = 4) (h5 : 5 ≤ vh.toNat % 16) (hroom : 14 + 4 * (vh.toNat % 16) + 20 ≤ ilen) :
    (Memory.read m (i + 23) = none → inboundCheck m i ilen = .unwritten) ∧
      (Memory.read m (i + 23) = some 6#8 → inboundCheck m i ilen = .good (vh.toNat % 16)) := by
  have hip : inboundCheck m i ilen = inboundIp m i ilen vh.toNat := by
    simp only [inboundCheck, if_neg (Nat.not_lt.mpr hl), readNat_ipv4Type ht, if_true, readNat_one, hv,
      Option.map_some]
  have hok : ¬ (vh.toNat / 16 ≠ 4 ∨ vh.toNat % 16 < 5 ∨ ilen < 14 + 4 * (vh.toNat % 16) + 20) := by omega
  rw [hip]
  exact ⟨fun h => by simp only [inboundIp, if_neg hok, readNat_one, h, Option.map_none],
    fun h => by simp [inboundIp, if_neg hok, readNat_one, h]⟩

/-- REPLY's addresses and ports do not read where one of their bytes was never written. -/
theorem replyEnds_eq_none {ihl k : Nat}
    (hk : k < 12 ∨ (26 ≤ k ∧ k < 34) ∨ (14 + 4 * ihl ≤ k ∧ k < 14 + 4 * ihl + 4))
    (h : Memory.read m (i + k) = none) : replyEnds m i ihl = none := by
  have part : ∀ {a n x : Nat}, Memory.readNat m a n = some x → ¬ (a ≤ i + k ∧ i + k < a + n) := by
    rintro a n x hx ⟨hlo, hhi⟩
    have hnone : Memory.readNat m a n = none :=
      readNat_eq_none (k := i + k - a) (by omega) (by rwa [Nat.add_sub_cancel' hlo])
    simp [hnone] at hx
  unfold replyEnds
  split
  · rename_i hdmac hsmac hsip hdip hsport hdport
    have := part hdmac
    have := part hsmac
    have := part hsip
    have := part hdip
    have := part hsport
    have := part hdport
    omega
  · rfl

end InboundCheck

/-! ### REPLY past its range checks (R159) -/

section Reply

variable {s : State} {b : Scb}

theorem execReply_of_unwritten (hb : s.scb? (s.argByte 0) = some b) (hin : s.argNat 1 + s.argNat 2 ≤ s.cfg.bufSize)
    (hr : builderRangesOk s.cfg .tcp b (s.argNat 3) (s.argNat 4) = true)
    (hi : inboundCheck s.buf (s.argNat 1) (s.argNat 2) = .unwritten) :
    execReply s = .fault .unwrittenRead := by
  simp only [execReply, hb, rangeOk_iff.mpr hin, hr, Bool.and_self, if_true, hi]

/-- REPLY to an accepted frame, with room for the answer, faults on an address or port that does not read, and else is
the writing of the frame. -/
theorem execReply_of_good {ihl : Nat} (hb : s.scb? (s.argByte 0) = some b)
    (hin : s.argNat 1 + s.argNat 2 ≤ s.cfg.bufSize)
    (hr : builderRangesOk s.cfg .tcp b (s.argNat 3) (s.argNat 4) = true)
    (hi : inboundCheck s.buf (s.argNat 1) (s.argNat 2) = .good ihl) (hcap : frameLen .tcp b ≤ s.argNat 4) :
    (replyEnds s.buf (s.argNat 1) ihl = none → execReply s = .fault .unwrittenRead) ∧
      ∀ e, replyEnds s.buf (s.argNat 1) ihl = some e →
        execReply s = buildFrame s (s.argByte 0) .tcp b e (s.argNat 3) := by
  refine ⟨fun he => ?_, fun e he => ?_⟩ <;>
    simp only [execReply, hb, rangeOk_iff.mpr hin, hr, Bool.and_self, if_true, hi, if_neg (Nat.not_lt.mpr hcap), he]

/-- REPLY to an accepted frame faults on a payload that does not read: its addresses and ports fault before it, or its
frame is not written. -/
theorem execReply_of_payload_none {ihl : Nat} (hb : s.scb? (s.argByte 0) = some b)
    (hin : s.argNat 1 + s.argNat 2 ≤ s.cfg.bufSize)
    (hr : builderRangesOk s.cfg .tcp b (s.argNat 3) (s.argNat 4) = true)
    (hi : inboundCheck s.buf (s.argNat 1) (s.argNat 2) = .good ihl) (hcap : frameLen .tcp b ≤ s.argNat 4)
    (hp : payloadBytes s.buf .tcp b = none) : execReply s = .fault .unwrittenRead := by
  obtain ⟨hnone, hsome⟩ := execReply_of_good hb hin hr hi hcap
  cases he : replyEnds s.buf (s.argNat 1) ihl with
  | none => exact hnone he
  | some e => rw [hsome e he, buildFrame_fault _ _ _ hp]

end Reply

/-! ### Parts of a frame (R64, R140 to R148) -/

/-- A part inside the first of two byte strings. -/
theorem slice_append_left {f g : List Byte} {k n : Nat} (h : k + n ≤ f.length) :
    slice (f ++ g) k n = slice f k n := by
  rw [slice, slice, List.drop_append_of_le_length (by omega), List.take_append_of_le_length (by simp; omega)]

/-- The first 34 bytes of a frame are the Ethernet and IPv4 headers. -/
theorem slice_frameBytes_headers {c : Config} {now : Word} {p : Proto} {b : Scb} {e : Ends} {payload : List Byte}
    {k n : Nat} (h : k + n ≤ 34) :
    slice (frameBytes c now p b e payload) k n = slice (ethHeader e ++ ipHeader p b e (ipChecksum p b e)) k n := by
  rw [frameBytes, List.append_assoc]
  exact slice_append_left (by simpa using h)

theorem beNat_be16 (h : Half) : beNat (be16 h) = h.toNat := by
  have := h.isLt
  simp only [beNat, be16, List.foldl_cons, List.foldl_nil, BitVec.extractLsb'_toNat, Nat.shiftRight_eq_div_pow]
  omega

theorem beNat_be32 (w : Word) : beNat (be32 w) = w.toNat := by
  have := w.isLt
  simp only [beNat, be32, List.foldl_cons, List.foldl_nil, BitVec.extractLsb'_toNat, Nat.shiftRight_eq_div_pow]
  omega

theorem beNat_be48 (m : Mac) : beNat (be48 m) = m.toNat := by
  have := m.isLt
  simp only [beNat, be48, List.foldl_cons, List.foldl_nil, BitVec.extractLsb'_toNat, Nat.shiftRight_eq_div_pow]
  omega

theorem be16_fragmentWord (fragOk : Bool) :
    be16 (fragmentWord fragOk) = if fragOk then [0x00#8, 0x00#8] else [0x40#8, 0x00#8] := by
  cases fragOk <;> rfl

/-- The header length of a TCP segment by SYN, bit 1 of FLAGS (R145 to R148). -/
theorem headerLen_tcp (b : Scb) : headerLen .tcp b = if b.flags.getLsbD 1 then 40 else 32 := by
  unfold headerLen optionLen isSyn
  cases b.flags.getLsbD 1 <;> rfl

/-- TSval is the tick, TSecr is 0 (R148). -/
theorem timestampOption_eq (now : Word) :
    timestampOption now = [0x01#8, 0x01#8, 0x08#8, 0x0A#8] ++ be32 now ++ [0#8, 0#8, 0#8, 0#8] := rfl

/-- The options of a SYN are 20 bytes (R147). -/
theorem tcpOptions_syn {c : Config} {now : Word} {b : Scb} (h : isSyn b.flags = true) :
    tcpOptions c now b = [0x02#8, 0x04#8] ++ be16 c.mssValue ++ timestampOption now
      ++ [0x01#8, 0x03#8, 0x03#8, c.wscale] ∧ (tcpOptions c now b).length = 20 := by
  refine ⟨if_pos h, ?_⟩
  rw [tcpOptions_length, optionLen, if_pos h]

/-- The options of every other segment are 12 bytes (R148). -/
theorem tcpOptions_noSyn {c : Config} {now : Word} {b : Scb} (h : isSyn b.flags = false) :
    tcpOptions c now b = timestampOption now ∧ (tcpOptions c now b).length = 12 := by
  refine ⟨if_neg (by simp [h]), ?_⟩
  rw [tcpOptions_length, optionLen, if_neg (by simp [h])]

end Sys2Proof.Machine

namespace Sys2Proof.Proofs

open Sys2Proof Sys2Proof.Machine Sys2Proof.Safety

/-- Settles O11: the frame of every command, followed through its inversion lemma. -/
theorem commandsLeaveHostStateAlone : Obligations.CommandsLeaveHostStateAlone :=
  fun _ _ _ => exec_sameOutsideCommand

/-- Settles O13, by induction over the updates a command may make; its completion touches none of the four. -/
theorem storageChangesOnlyByItsCommands : Obligations.StorageChangesOnlyByItsCommands := by
  intro i s t h
  obtain ⟨u, code, hw, rfl⟩ := exec_commandWrites h
  refine ⟨fun hi => ?_, hw.arp_eq, hw.scbs_eq, hw.isn_eq⟩
  have hbuf : (u.complete code).buf = s.buf := hw.buf_eq hi
  exact ⟨hbuf, fun a => congrArg (Memory.read · a) hbuf⟩

/-- Settles O19: such an access reaches no register. -/
theorem otherRegisterAccessIsRefused : Obligations.OtherRegisterAccessIsRefused :=
  fun _ _ _ _ _ h => step_regAccess_refused (regAt_eq_none h)

/-- Settles O21, from the guard of the port and the laws of one written byte. -/
theorem hostBufPort : Obligations.HostBufPort := by
  refine ⟨fun s a b hb ha => ?_, fun s a b hb ha h => ?_, fun s a b hb => ?_⟩
  · exact ⟨_, bufPort_idle (s.writeBuf a b) hb ha, read_write_same _ _ _,
      fun x hx => read_write_other _ _ _ _ hx, rfl⟩
  · exact (bufPort_idle _ hb ha).trans (congrArg _ (readBuf_of_some h))
  · exact ⟨bufPort_busy _ _ hb, bufPort_busy _ _ hb⟩

/-- Settles O22: past its checks each command reads a range, which does not read where one byte was never written. -/
theorem unwrittenByteFaults : Obligations.UnwrittenByteFaults := by
  refine ⟨fun s k => ⟨fun hr hk h => ?csum, fun hl hr hk h => ?pseudo⟩,
    fun s b p k hb hp ho htx htl hcap hne hk h => ?build,
    fun s b hb hin hout htx htl hlen => ⟨?type, fun htype => ⟨fun h => ?version,
      fun vh hvh h4 h5 hroom => ⟨fun h => ?proto, fun hproto hcap => ⟨?ends, ?payload⟩⟩⟩⟩⟩
  case csum => exact (execCsum_inRange hr).trans (withBytes_fault _ hk h)
  case pseudo => exact (execCsumPseudo_inRange hl hr).trans (withBytes_fault _ hk h)
  case build =>
    have hranges := builderRangesOk_iff.mpr ⟨ho, .inr htx, htl⟩
    exact (execBuild_checked hb hp hranges hcap).trans (buildFrame_fault _ _ _ (payloadBytes_eq_none hne hk h))
  all_goals have hranges := builderRangesOk_iff.mpr ⟨hout, htx, htl⟩
  case type =>
    rintro ⟨k, hk, h⟩
    exact execReply_of_unwritten hb hin hranges (inboundCheck_of_unwrittenType hlen hk h)
  case version => exact execReply_of_unwritten hb hin hranges (inboundCheck_of_unwrittenVersion hlen htype h)
  all_goals obtain ⟨hunwritten, hgood⟩ := inboundCheck_of_header hlen htype hvh h4 h5 hroom
  case proto => exact execReply_of_unwritten hb hin hranges (hunwritten h)
  case ends =>
    rintro ⟨k, hk, h⟩
    obtain ⟨hfault, -⟩ := execReply_of_good hb hin hranges (hgood hproto) hcap
    exact hfault (replyEnds_eq_none hk h)
  case payload =>
    rintro ⟨k, hk, hne, h⟩
    exact execReply_of_payload_none hb hin hranges (hgood hproto) hcap (payloadBytes_eq_none hne hk h)

/-- Settles O52: the two headers are read off their 34 bytes, the options by the two cases of SYN. -/
theorem frameLayout : Obligations.FrameLayout := by
  refine ⟨fun c now p b e payload f hf => ?_, fun c now b => ⟨fun h => ?_, fun h => ?_⟩, fun p b => ?_,
    fun h w m => ⟨⟨rfl, beNat_be16 h⟩, ⟨rfl, beNat_be32 w⟩, rfl, beNat_be48 m⟩⟩
  · subst hf
    refine ⟨fun hp => ?_, ?_⟩
    · rw [frameBytes_length c now e hp, frameLen, totalLen]
      omega
    · simp (disch := decide) only [slice_frameBytes_headers, ← be16_fragmentWord]
      exact ⟨rfl, rfl, rfl, rfl, rfl, rfl, rfl, rfl, rfl, rfl, rfl⟩
  · simpa [timestampOption_eq] using tcpOptions_syn h
  · simpa [timestampOption_eq] using tcpOptions_noSyn h
  · exact ⟨rfl, rfl, headerLen_tcp b, rfl, rfl, rfl⟩

end Sys2Proof.Proofs

/-! ## Proofs: encoding (spec 30_encoding.md) -/

namespace Sys2Proof.Machine

open Sys2Proof Sys2Proof.Safety

/-! ### Decoding is the inverse of encoding (R80 to R85) -/

/-- The three fields are the whole word (R80). -/
theorem fieldsOf_join (w : Word) : (fieldsOf w).rsv ++ (fieldsOf w).mod ++ (fieldsOf w).opc = w := by
  apply BitVec.eq_of_toNat_eq
  simp only [fieldsOf, toNat_append_add, BitVec.extractLsb'_toNat, Nat.shiftRight_eq_div_pow]
  omega

theorem encode_eq_of_fields {i : Instr} {w : Word} (h : i.fields = fieldsOf w) : encode i = w := by
  rw [encode, h]
  exact fieldsOf_join w

/-- Fields select a row when RSV is 0 and only MOD bits that the OPC's row defines are set (R82, R83, R89). -/
theorem problem_eq_none {f : CommandFields} : f.problem = none ↔
    f.rsv = 0#16 ∧ ∃ bits, definedModBits f.opc = some bits ∧ f.mod &&& ~~~bits = 0#8 := by
  unfold CommandFields.problem
  split
  · rename_i hr
    simp [hr]
  · rename_i hr
    cases hd : definedModBits f.opc with
    | none => simp
    | some bits => simpa using fun _ => not_not.mp hr

/-- A decoded word's fields select a row, whose OPC and MOD bit 0 name the command. -/
theorem decode_eq_ok {w : Word} {i : Instr} : decode w = .ok i ↔
    (fieldsOf w).problem = none ∧ instrOf (fieldsOf w).opc ((fieldsOf w).mod.getLsbD 0) = some i := by
  unfold decode
  split
  · rename_i p hp
    simp [hp]
  · rename_i hp
    split
    · rename_i j hj
      simp only [hp, hj, true_and, Except.ok.injEq, Option.some.injEq]
    · rename_i hn
      simp only [hn, reduceCtorEq, and_false]

/-- A command named by an OPC has that OPC, and MOD bit 0 where the OPC defines it (R82). -/
theorem fields_of_instrOf {opc bits : Byte} {m : Bool} {i : Instr} (hi : instrOf opc m = some i)
    (hb : definedModBits opc = some bits) :
    i.fields = ⟨opc, bits &&& modByte m, 0#16⟩ ∧ (bits = 0#8 ∨ bits = 1#8) := by
  unfold instrOf at hi
  split at hi
  case h_14 => cases hi
  all_goals
    obtain rfl := Option.some.inj hi
    obtain rfl := Option.some.inj hb
    cases m <;> decide

/-- MOD is what its defined bits let through, once the others are 0 (R82). -/
theorem mod_eq_of_reservedClear {mod bits : Byte} (h : mod &&& ~~~bits = 0#8) (hb : bits = 0#8 ∨ bits = 1#8) :
    bits &&& modByte (mod.getLsbD 0) = mod := by
  revert mod
  obtain rfl | rfl := hb <;> decide

/-- Encoding a decoded word gives the word back: the fields that decoding checks are the fields of the command. -/
theorem encode_of_decode {w : Word} {i : Instr} (h : decode w = .ok i) : encode i = w := by
  obtain ⟨hp, hi⟩ := decode_eq_ok.mp h
  obtain ⟨hrsv, bits, hbits, hmod⟩ := problem_eq_none.mp hp
  obtain ⟨hf, hb⟩ := fields_of_instrOf hi hbits
  rw [mod_eq_of_reservedClear hmod hb, ← hrsv] at hf
  exact encode_eq_of_fields hf

/-- Decoding an encoded command gives the command back. -/
theorem decode_encode (i : Instr) : decode (encode i) = .ok i := by
  cases i with
  | csumFixup b | sessFind b | sessWrite b => cases b <;> rfl
  | _ => rfl

theorem decode_eq_ok_iff_encode {w : Word} {i : Instr} : decode w = .ok i ↔ encode i = w :=
  ⟨encode_of_decode, fun h => h ▸ decode_encode i⟩

/-! ### Rows of the opcode map (R84, R85) -/

/-- A row's mask leaves open the MOD bit of its command, where there is one, and no other bit (R82). -/
theorem rowMask_getLsbD {i : Instr} {k : Nat} (hk : k < 32) (h8 : k ≠ 8 ∨ modBit i = none) :
    (rowMask i).getLsbD k = true := by
  have full : ∀ k < 32, (0xFFFFFFFF#32).getLsbD k = true := by decide
  have openAt8 : ∀ k < 32, k ≠ 8 → (0xFFFFFEFF#32).getLsbD k = true := by decide
  cases i with
  | csumFixup b | sessFind b | sessWrite b => exact openAt8 k hk (h8.resolve_right nofun)
  | _ => exact full k hk

/-- A row selects one word for each value of its MOD bit. -/
theorem rowSelects_unique {v w : Word} {i : Instr} (hv : rowSelects v i) (hw : rowSelects w i) : v = w := by
  obtain ⟨hvm, hvb⟩ := hv
  obtain ⟨hwm, hwb⟩ := hw
  refine BitVec.eq_of_getLsbD_eq fun k hk => ?_
  by_cases h8 : k ≠ 8 ∨ modBit i = none
  · have hmask := congrArg (BitVec.getLsbD · k) (hvm.trans hwm.symm)
    simpa [rowMask_getLsbD hk h8] using hmask
  · obtain ⟨rfl, hm⟩ : k = 8 ∧ modBit i ≠ none := by simpa using h8
    obtain ⟨b, hb⟩ := Option.ne_none_iff_exists'.mp hm
    exact (hvb b hb).trans (hwb b hb).symm

open Laws.EncodingFitsRow in
/-- The facts about the single commands, as one about every command. -/
theorem encoding_fits_row : ∀ i : Instr, Statement i
  | .nop => nop
  | .csum => csum
  | .csumFixup w => csumFixup w
  | .csumPseudo => csumPseudo
  | .arpLookup => arpLookup
  | .arpUpdate => arpUpdate
  | .arpRead => arpRead
  | .build => build
  | .reply => reply
  | .sessFind syn => sessFind syn
  | .sessRead => sessRead
  | .sessWrite stamp => sessWrite stamp
  | .sessFree => sessFree

theorem encode_modBit {i : Instr} {m : Bool} (h : modBit i = some m) : (encode i).getLsbD 8 = m := by
  cases i with
  | csumFixup b | sessFind b | sessWrite b =>
    obtain rfl := Option.some.inj h
    cases b <;> rfl
  | _ => cases h

/-- The word a row selects is its command's encoding. -/
theorem rowSelects_iff_encode {w : Word} {i : Instr} : rowSelects w i ↔ encode i = w := by
  obtain ⟨-, hrow⟩ := encoding_fits_row i
  have henc : rowSelects (encode i) i := ⟨hrow, fun _ => encode_modBit⟩
  exact ⟨rowSelects_unique henc, fun h => h ▸ henc⟩

theorem rowSelects_iff_decode {w : Word} {i : Instr} : rowSelects w i ↔ decode w = .ok i :=
  rowSelects_iff_encode.trans decode_eq_ok_iff_encode.symm

theorem engineStep_of_illegal {s : State} {p : CommandProblem} (hp : s.pending = true)
    (hd : decode s.latCmd = .error p) : engineStep s = .next (s.complete .illegalCmd) := by
  simp only [engineStep, hp, hd, if_true, raise]

/-! ### What a command and a step do to RES and ERR (R88, R224, R257) -/

/-- A RES register outside a command's list stays (R88). -/
theorem CommandWrites.res_eq {i : Instr} {s u : State} {k : Fin 8} (h : CommandWrites i s u)
    (hk : k ∉ resultRegs i) : u.res[k] = s.res[k] := by
  induction h with
  | refl => rfl
  | res j v hj _ ih => exact (getElem_set_other _ v (ne_of_mem_of_not_mem hj hk).symm).trans ih
  | scb _ _ _ _ ih => rwa [setScb_res]
  | slot _ _ _ _ ih => rwa [State.allocate, takeIsn_res]
  | bytes _ _ _ _ ih | arp _ _ _ _ ih => exact ih

/-- A command ends without error, or with TABLE_FULL, or does nothing but complete with its error (R224, R226). -/
theorem exec_ends {i : Instr} {s t : State} (h : exec i s = .next t) :
    t.err = .ok ∨ t.err = .tableFull ∨ t = s.complete t.err := by
  cases i with
  | nop => exact .inl (execNop_cases h ▸ rfl)
  | csum => obtain ⟨-, rfl⟩ | ⟨_, -, -, rfl⟩ := execCsum_cases h <;> simp
  | csumFixup w => exact .inl (execCsumFixup_cases h ▸ rfl)
  | csumPseudo => obtain ⟨-, rfl⟩ | ⟨_, -, -, -, rfl⟩ := execCsumPseudo_cases h <;> simp
  | arpLookup => exact .inl (execArpLookup_cases h ▸ rfl)
  | arpUpdate => exact .inl (execArpUpdate_cases h ▸ rfl)
  | arpRead => obtain ⟨-, rfl⟩ | ⟨_, -, rfl⟩ := execArpRead_cases h <;> simp
  | build =>
    obtain ⟨-, rfl⟩ | ⟨_, -, ⟨-, rfl⟩ | ⟨_, -, ⟨-, rfl⟩ | ⟨-, ⟨-, rfl⟩ | ⟨-, _, -, rfl⟩⟩⟩⟩ :=
      execBuild_cases h <;> simp
  | reply =>
    obtain ⟨-, rfl⟩ | ⟨_, -, ⟨-, rfl⟩ | ⟨-, ⟨-, rfl⟩ | ⟨_, -, ⟨-, rfl⟩ | ⟨-, _, _, -, -, rfl⟩⟩⟩⟩ :=
      execReply_cases h <;> simp
  | sessFind syn =>
    obtain ⟨_, -, rfl⟩ | ⟨-, ⟨-, rfl⟩ | ⟨-, _, -, rfl⟩ | ⟨-, -, rfl⟩⟩ := execSessFind_cases h <;> simp
  | sessRead => obtain ⟨-, rfl⟩ | ⟨_, -, ⟨_, rfl⟩ | rfl⟩ := execSessRead_cases h <;> simp
  | sessWrite stamp => obtain ⟨-, rfl⟩ | ⟨_, -, ⟨-, rfl⟩ | ⟨_, -, rfl⟩⟩ := execSessWrite_cases h <;> simp
  | sessFree => obtain ⟨-, rfl⟩ | ⟨_, -, rfl⟩ := execSessFree_cases h <;> simp

/-- An error other than TABLE_FULL changes nothing but STATUS and `pending` (R224). -/
theorem exec_error_precise {i : Instr} {s t : State} (h : exec i s = .next t) (hok : t.err ≠ .ok)
    (hfull : t.err ≠ .tableFull) : t = s.complete t.err :=
  ((exec_ends h).resolve_left hok).resolve_left hfull

/-- The host reads the same from RES and from the ERR field of STATUS. -/
def sameResults (s t : State) : Prop := t.shownErr = s.shownErr ∧ t.res = s.res

/-- The ERR field of STATUS, bits 11:8 (R23). -/
theorem statusWord_err (s : State) : s.statusWord.extractLsb' 8 4 = s.shownErr.code := by
  apply BitVec.eq_of_toNat_eq
  have hbusy := Bool.toNat_le s.busy
  have hdone := Bool.toNat_le s.done
  have hovr := Bool.toNat_le s.ovr
  have hcode := s.shownErr.code.isLt
  rw [BitVec.extractLsb'_toNat, statusWord_toNat, Nat.shiftRight_eq_div_pow]
  omega

theorem sameResults.regValue {s t : State} (h : sameResults s t) :
    (t.regValue .status).extractLsb' 8 4 = (s.regValue .status).extractLsb' 8 4 ∧
      ∀ i, t.regValue (.res i) = s.regValue (.res i) := by
  obtain ⟨herr, hres⟩ := h
  simp only [State.regValue, statusWord_err, herr, hres, implies_true, and_self]

/-- Acceptance keeps showing the code of the previous command (R257; log entry 21). -/
theorem sameResults_writeCmd (s : State) (w : Word) : sameResults s (s.writeCmd w) := by
  unfold State.writeCmd
  split
  · exact ⟨rfl, rfl⟩
  · rename_i hb
    exact ⟨by simp [State.shownErr, hb], rfl⟩

/-- A register write shows in RES or ERR only by a reset: a 1 in CTRL.SRST (R24). -/
theorem writeReg_results (s : State) (r : Reg) (v : Word) :
    (r = .ctrl ∧ v.getLsbD 1 = true) ∨ sameResults s (s.writeReg r v) := by
  cases r with
  | cmd => exact .inr (sameResults_writeCmd s v)
  | ctrl =>
    cases hv : v.getLsbD 1 with
    | true => exact .inl ⟨rfl, rfl⟩
    | false => exact .inr (by rw [State.writeReg, writeCtrl_of_noReset hv]; exact ⟨rfl, rfl⟩)
  | _ => exact .inr ⟨rfl, rfl⟩

theorem sameResults_readBuf (s : State) (a : Nat) : sameResults s (s.readBuf a) := by
  unfold State.readBuf
  split <;> exact ⟨rfl, rfl⟩

theorem hostAccess_results {a : HostAccess} {s t : State} (h : hostAccess a s = .next t) :
    resetEvent (.host a) ∨ sameResults s t := by
  obtain ⟨_, _, _, -, -, rfl⟩ | ⟨_, _, v, r, rfl, hr, rfl⟩ | ⟨_, -, -, -, rfl⟩ | ⟨_, _, -, -, -, rfl⟩ :=
    hostAccess_cases h
  · exact .inr ⟨rfl, rfl⟩
  · obtain ⟨rfl, hv⟩ | hsame := writeReg_results s r v
    · obtain ⟨rfl, -, -, hoff⟩ := regAt_low hr
      obtain rfl := hoff rfl
      exact .inl (.inr ⟨v, rfl, hv⟩)
    · exact .inr hsame
  · exact .inr (sameResults_readBuf _ _)
  · exact .inr ⟨rfl, rfl⟩

/-- The engine's turn completes a pending command, or does nothing. -/
theorem engineStep_results {s t : State} (h : engineStep s = .next t) :
    (s.pending = true ∧ t.busy = false ∧ t.done = true) ∨ sameResults s t := by
  obtain ⟨hp, _, -, hx⟩ | ⟨hp, -, rfl⟩ | ⟨-, rfl⟩ := engineStep_cases h
  · obtain ⟨u, code, rfl, -⟩ := exec_completes hx
    exact .inl ⟨hp, rfl, rfl⟩
  · exact .inl ⟨hp, rfl, rfl⟩
  · exact .inr ⟨rfl, rfl⟩

theorem perform_results {e : Event} {s t : State} (h : perform e s = .next t) :
    (s.pending = true ∧ t.busy = false ∧ t.done = true) ∨ resetEvent e ∨ sameResults s t := by
  obtain ⟨-, hx⟩ | ⟨-, rfl⟩ | ⟨rfl, -⟩ | ⟨_, rfl, ha⟩ := perform_cases h
  · exact (engineStep_results hx).imp_right .inr
  · exact .inr (.inr ⟨rfl, rfl⟩)
  · exact .inr (.inl (.inl rfl))
  · exact .inr (hostAccess_results ha)

/-- What the host reads from RES and ERR changes only at a completion or a reset (R257). -/
theorem step_results {s t : State} (h : step s = .next t) :
    ((s.pending = true ∧ t.busy = false ∧ t.done = true) ∨ ∃ e rest, s.agenda = e :: rest ∧ resetEvent e) ∨
      sameResults s t := by
  obtain ⟨-, hx⟩ | ⟨e, rest, ha, hp⟩ := step_cases h
  · exact (engineStep_results hx).imp_left .inl
  · obtain hc | hr | hsame := perform_results hp
    · exact .inl (.inl hc)
    · exact .inl (.inr ⟨e, rest, ha, hr⟩)
    · exact .inr hsame

/-! ### What no command reads (R232, R235, R258)

Operands, searches and range checks have the same value under other host inputs, by definition, and the updates of a
command commute with them; so a command's answer splits into the same cases, with the same updates in each. -/

/-- Two choices by one condition correspond when their branches do. -/
theorem ite_eq_mapNext {c d : Prop} [Decidable c] [Decidable d] {f : State → State} {x y x' y' : Answer}
    (hc : d ↔ c) (hx : x' = mapNext f x) (hy : y' = mapNext f y) :
    (if d then x' else y') = mapNext f (if c then x else y) := by
  rw [apply_ite (mapNext f), ← hx, ← hy]
  exact if_congr hc rfl rfl

section HostInputs

variable {args : Vector Word 8} {ip mask tick : Word} {ie : Bool} {base : Nat} {s : State}

/-! #### Reads -/

@[simp] theorem withHostInputs_argByte (k : Fin 8) :
    (withHostInputs args ip mask tick ie base s).argByte k = s.argByte k := rfl

@[simp] theorem withHostInputs_argTuple :
    (withHostInputs args ip mask tick ie base s).argTuple = s.argTuple := rfl

@[simp] theorem withHostInputs_argNat (k : Fin 8) :
    (withHostInputs args ip mask tick ie base s).argNat k = s.argNat k := rfl

@[simp] theorem withHostInputs_buf : (withHostInputs args ip mask tick ie base s).buf = s.buf := rfl

@[simp] theorem withHostInputs_arp : (withHostInputs args ip mask tick ie base s).arp = s.arp := rfl

@[simp] theorem withHostInputs_scb? (sel : Byte) :
    (withHostInputs args ip mask tick ie base s).scb? sel = s.scb? sel := rfl

@[simp] theorem withHostInputs_arpTarget (a : Word) :
    (withHostInputs args ip mask tick ie base s).arpTarget a = s.arpTarget a := rfl

@[simp] theorem withHostInputs_sessHit (x : Tuple) :
    (withHostInputs args ip mask tick ie base s).sessHit x = s.sessHit x := rfl

@[simp] theorem withHostInputs_sessFree? :
    (withHostInputs args ip mask tick ie base s).sessFree? = s.sessFree? := rfl

/-- The parameters enter a frame by the MSS, the window scale and the UDP substitution alone. -/
theorem frameBytes_withHostInputs (p : Proto) (b : Scb) (e : Ends) (payload : List Byte) :
    frameBytes (withHostInputs args ip mask tick ie base s).cfg (withHostInputs args ip mask tick ie base s).now p b e
      payload = frameBytes s.cfg s.now p b e payload := by cases p <;> rfl

/-! #### Updates -/

theorem setScb_withHostInputs (sel : Byte) (b : Scb) :
    (withHostInputs args ip mask tick ie base s).setScb sel b =
      withHostInputs args ip mask tick ie base (s.setScb sel b) := by
  unfold State.setScb
  split <;> rfl

theorem takeIsn_withHostInputs :
    (withHostInputs args ip mask tick ie base s).takeIsn =
      withHostInputs args ip mask tick ie base s.takeIsn := by
  unfold State.takeIsn withHostInputs
  dsimp only
  split <;> rfl

theorem allocate_withHostInputs (j : Nat) (x : Tuple) :
    (withHostInputs args ip mask tick ie base s).allocate j x =
      withHostInputs args ip mask tick ie base (s.allocate j x) :=
  takeIsn_withHostInputs (s := s.setSlot j (newScb x s.isn s.now))

theorem setLookup_withHostInputs (hit : Option Nat) :
    (withHostInputs args ip mask tick ie base s).setLookup hit =
      withHostInputs args ip mask tick ie base (s.setLookup hit) := by cases hit <;> rfl

theorem arpUpsert_withHostInputs (a : Word) (mac : Mac) :
    (withHostInputs args ip mask tick ie base s).arpUpsert a mac =
      withHostInputs args ip mask tick ie base (s.arpUpsert a mac) := by
  simp only [State.arpUpsert, withHostInputs_arpTarget]
  rw [apply_ite (withHostInputs args ip mask tick ie base)]
  refine if_congr Iff.rfl ?_ rfl
  split <;> rfl

theorem emit_withHostInputs (sel : Byte) (p : Proto) (b : Scb) (o : Nat) (frame : List Byte) :
    (withHostInputs args ip mask tick ie base s).emit sel p b o frame =
      withHostInputs args ip mask tick ie base (s.emit sel p b o frame) := by
  unfold State.emit State.setScb
  split <;> rfl

/-! #### Answers -/

theorem withBytes_withHostInputs (a n : Nat) {f g : List Byte → Answer}
    (h : ∀ bs, f bs = mapNext (withHostInputs args ip mask tick ie base) (g bs)) :
    withBytes (withHostInputs args ip mask tick ie base s) a n f =
      mapNext (withHostInputs args ip mask tick ie base) (withBytes s a n g) := by
  simp only [withBytes, withHostInputs_buf]
  split
  · exact h _
  · rfl

theorem buildFrame_withHostInputs (sel : Byte) (p : Proto) (b : Scb) (e : Ends) (o : Nat) :
    buildFrame (withHostInputs args ip mask tick ie base s) sel p b e o =
      mapNext (withHostInputs args ip mask tick ie base) (buildFrame s sel p b e o) := by
  simp only [buildFrame, withHostInputs_buf, frameBytes_withHostInputs, emit_withHostInputs]
  split <;> rfl

/-! #### Commands -/

theorem execCsum_withHostInputs :
    execCsum (withHostInputs args ip mask tick ie base s) =
      mapNext (withHostInputs args ip mask tick ie base) (execCsum s) :=
  ite_eq_mapNext Iff.rfl (withBytes_withHostInputs _ _ fun _ => rfl) rfl

theorem execCsumPseudo_withHostInputs :
    execCsumPseudo (withHostInputs args ip mask tick ie base s) =
      mapNext (withHostInputs args ip mask tick ie base) (execCsumPseudo s) :=
  ite_eq_mapNext Iff.rfl rfl <|
    ite_eq_mapNext Iff.rfl (withBytes_withHostInputs _ _ fun _ => rfl) rfl

theorem execArpRead_withHostInputs :
    execArpRead (withHostInputs args ip mask tick ie base s) =
      mapNext (withHostInputs args ip mask tick ie base) (execArpRead s) := by
  simp only [execArpRead, withHostInputs_arp, withHostInputs_argByte]
  split <;> rfl

theorem execBuild_withHostInputs :
    execBuild (withHostInputs args ip mask tick ie base s) =
      mapNext (withHostInputs args ip mask tick ie base) (execBuild s) := by
  simp only [execBuild, withHostInputs_scb?, withHostInputs_argByte, buildFrame_withHostInputs]
  split
  · rfl
  · split
    · rfl
    · exact ite_eq_mapNext Iff.rfl (ite_eq_mapNext Iff.rfl rfl rfl) rfl

theorem execReply_withHostInputs :
    execReply (withHostInputs args ip mask tick ie base s) =
      mapNext (withHostInputs args ip mask tick ie base) (execReply s) := by
  simp only [execReply, withHostInputs_scb?, withHostInputs_argByte, withHostInputs_argNat, withHostInputs_buf,
    buildFrame_withHostInputs]
  split
  · rfl
  · refine ite_eq_mapNext Iff.rfl ?_ rfl
    split
    · rfl
    · rfl
    · refine ite_eq_mapNext Iff.rfl rfl ?_
      split <;> rfl

theorem execSessFind_withHostInputs (syn : Bool) :
    execSessFind syn (withHostInputs args ip mask tick ie base s) =
      mapNext (withHostInputs args ip mask tick ie base) (execSessFind syn s) := by
  simp only [execSessFind, withHostInputs_argTuple, withHostInputs_sessHit, withHostInputs_sessFree?,
    allocate_withHostInputs]
  split
  · rfl
  · refine ite_eq_mapNext Iff.rfl ?_ rfl
    split <;> rfl

theorem execSessRead_withHostInputs :
    execSessRead (withHostInputs args ip mask tick ie base s) =
      mapNext (withHostInputs args ip mask tick ie base) (execSessRead s) := by
  simp only [execSessRead, withHostInputs_scb?, withHostInputs_argByte]
  split
  · rfl
  · refine ite_eq_mapNext Iff.rfl rfl ?_
    split <;> rfl

theorem execSessWrite_withHostInputs (stamp : Bool) :
    execSessWrite stamp (withHostInputs args ip mask tick ie base s) =
      mapNext (withHostInputs args ip mask tick ie base) (execSessWrite stamp s) := by
  simp only [execSessWrite, withHostInputs_scb?, withHostInputs_argByte, setScb_withHostInputs]
  split
  · rfl
  · split <;> rfl

theorem execSessFree_withHostInputs :
    execSessFree (withHostInputs args ip mask tick ie base s) =
      mapNext (withHostInputs args ip mask tick ie base) (execSessFree s) := by
  simp only [execSessFree, withHostInputs_scb?, withHostInputs_argByte, setScb_withHostInputs]
  split <;> rfl

/-- No command reads ARG, HOST_IP, HOST_MASK, CTRL, the tick input or NSE_BASE (R232, R235, R258). -/
theorem exec_withHostInputs (i : Instr) :
    exec i (withHostInputs args ip mask tick ie base s) =
      mapNext (withHostInputs args ip mask tick ie base) (exec i s) := by
  cases i with
  | nop => rfl
  | csum => exact execCsum_withHostInputs
  | csumFixup w => rfl
  | csumPseudo => exact execCsumPseudo_withHostInputs
  | arpLookup => exact congrArg succeed (setLookup_withHostInputs _)
  | arpUpdate => exact congrArg succeed (arpUpsert_withHostInputs _ _)
  | arpRead => exact execArpRead_withHostInputs
  | build => exact execBuild_withHostInputs
  | reply => exact execReply_withHostInputs
  | sessFind syn => exact execSessFind_withHostInputs syn
  | sessRead => exact execSessRead_withHostInputs
  | sessWrite stamp => exact execSessWrite_withHostInputs stamp
  | sessFree => exact execSessFree_withHostInputs

end HostInputs

/-! ### Operands (R86) -/

theorem argByte_toNat (s : State) (k : Fin 8) : (s.argByte k).toNat = s.argNat k % 2 ^ 8 := by
  rw [State.argByte, BitVec.extractLsb'_toNat, Nat.shiftRight_zero, State.argNat]

theorem argLow_toNat (s : State) (k : Fin 8) : (s.argLow k).toNat = s.argNat k % 2 ^ 16 := by
  rw [State.argLow, BitVec.extractLsb'_toNat, Nat.shiftRight_zero, State.argNat]

theorem argHigh_toNat (s : State) (k : Fin 8) : (s.argHigh k).toNat = s.argNat k / 2 ^ 16 := by
  have hlt := (s.arg k).isLt
  rw [State.argHigh, BitVec.extractLsb'_toNat, Nat.shiftRight_eq_div_pow, State.argNat]
  omega

end Sys2Proof.Machine

namespace Sys2Proof.Proofs

open Sys2Proof Sys2Proof.Machine Sys2Proof.Safety

/-- Settles O1, from the two directions: the fields decoding checks are the command's, and every command decodes. -/
theorem decodeInvertsEncode : Obligations.DecodeInvertsEncode :=
  fun _ _ => decode_eq_ok_iff_encode

/-- Settles O2: the rows that select a word are the commands it decodes to, so there is one or none. -/
theorem everyWordSelectsOneRowOrIsIllegal : Obligations.EveryWordSelectsOneRowOrIsIllegal := by
  intro w
  cases hd : decode w with
  | ok i =>
    refine .inl ⟨i, rowSelects_iff_decode.mpr hd, rfl, fun j hj => ?_⟩
    exact Except.ok.inj ((rowSelects_iff_decode.mp hj).symm.trans hd)
  | error p =>
    refine .inr ⟨fun i hi => ?_, fun u hp hw => engineStep_of_illegal hp (hw ▸ hd)⟩
    exact absurd ((rowSelects_iff_decode.mp hi).symm.trans hd) nofun

/-- Settles O12: the updates a command may make, its error cases, and the events that show in RES or ERR. -/
theorem onlyListedResultRegistersChange : Obligations.OnlyListedResultRegistersChange := by
  refine ⟨fun i s t h => ⟨fun k hk => ?listed, fun hok hfull => ?error⟩, fun s i k v => ⟨?one, rfl⟩,
    fun s t h hchange => (step_results h).resolve_right fun hsame => ?shown⟩
  case listed =>
    obtain ⟨u, code, hw, rfl⟩ := exec_commandWrites h
    exact hw.res_eq hk
  case error => rw [exec_error_precise h hok hfull, complete_res]
  case one =>
    split
    · subst k
      exact getElem_set_same _ _ _
    · rename_i hne
      exact getElem_set_other _ _ hne
  case shown =>
    obtain ⟨hstatus, hres⟩ := hsame.regValue
    obtain hne | ⟨i, hne⟩ := hchange
    · exact hne hstatus
    · exact hne (hres i)

/-- Settles O14: every command commutes with other host inputs, and the operands are parts of the latches. -/
theorem commandUsesOnlyLatchedInputs : Obligations.CommandUsesOnlyLatchedInputs :=
  ⟨fun i _ _ _ _ _ _ _ => exec_withHostInputs i,
    fun s k => ⟨rfl, rfl, argByte_toNat s k, argLow_toNat s k, argHigh_toNat s k⟩⟩

/-- Settles O3: each word is its command's encoding. -/
theorem sampleWordsDecode : Obligations.SampleWordsDecode := by
  have sample : ∀ {w : Word} {i : Instr}, encode i = w → decode w = .ok i := decode_eq_ok_iff_encode.mpr
  exact ⟨sample rfl, sample rfl, sample rfl, sample rfl, sample rfl, sample rfl, sample rfl, sample rfl⟩

end Sys2Proof.Proofs

/-! ## Proofs: checksum unit (spec 40_checksum.md) -/

namespace Sys2Proof.Machine

open Sys2Proof

/-! ### The number a byte string adds up to (R8, R64) -/

theorem byte_toNat_eq_zero {b : Byte} : b.toNat = 0 ↔ b = 0#8 := BitVec.toNat_inj (y := 0#8)

/-- The words add up to 0 exactly when every byte is 0. -/
theorem sumWords_words_eq_zero : ∀ bs : List Byte, sumWords (words bs) = 0 ↔ ∀ x ∈ bs, x = 0#8
  | [] => by simp [words, sumWords]
  | [b] => by simp [words, sumWords, append_byte_toNat, byte_toNat_eq_zero]
  | b :: c :: bs => by
    rw [List.forall_mem_cons, List.forall_mem_cons, ← sumWords_words_eq_zero bs, ← byte_toNat_eq_zero,
      ← byte_toNat_eq_zero]
    simp only [words, sumWords, append_byte_toNat]
    omega

/-- Aligned words in a range add up apart from what stands before and after them. -/
theorem sumWords_words_replace {pre : List Byte} (ws : List Half) (post : List Byte) (h : pre.length % 2 = 0) :
    sumWords (words (pre ++ ws.flatMap be16 ++ post)) =
      sumWords (words pre) + sumWords ws + sumWords (words post) := by
  have hws : (ws.flatMap be16).length % 2 = 0 := by
    rw [flatMap_be16_length]
    exact Nat.mul_mod_right 2 _
  rw [List.append_assoc, words_append _ _ h, words_append _ _ hws, words_flatMap_be16, sumWords_append,
    sumWords_append, Nat.add_assoc]

/-- A word and its complement add up to 0xFFFF. -/
theorem not_toNat_add (v : Half) : (~~~v).toNat + v.toNat = 0xFFFF := by
  have := v.isLt
  rw [BitVec.toNat_not]
  omega

/-- Words and their complements add up to 0xFFFF each. -/
theorem sumWords_map_not_add (ws : List Half) :
    sumWords (ws.map (fun o => ~~~o)) + sumWords ws = 0xFFFF * ws.length := by
  induction ws with
  | nil => rfl
  | cons w ws ih =>
    have := not_toNat_add w
    simp only [List.map_cons, sumWords, List.length_cons]
    omega

/-- Multiples of 0xFFFF, the other zero of ones' complement, vanish beside a number that is not 0. -/
theorem fold_add_mul {n : Nat} (k : Nat) (h : 0 < n) : fold (n + 0xFFFF * k) = fold n :=
  fold_congr (by omega) (Nat.add_mul_mod_self_left n 0xFFFF k)

/-- A multiple of 0xFFFF that is not 0 folds to 0xFFFF. -/
theorem fold_mul {k : Nat} (h : 0 < k) : fold (0xFFFF * k) = 0xFFFF :=
  (fold_congr (n := 0xFFFF) (by omega) (by omega)).trans (fold_of_lt (by decide))

/-- A number with the complement of its fold added is a multiple of 0xFFFF, and not 0. -/
theorem fold_add_complement {n c : Nat} (h : c + fold n = 0xFFFF) : fold (n + c) = 0xFFFF := by
  have hz : fold n = 0 ↔ n = 0 := fold_eq_zero
  have hm : fold n % 0xFFFF = n % 0xFFFF := fold_mod n
  exact (fold_congr (n := 0xFFFF) (by omega) (by omega)).trans (fold_of_lt (by decide))

/-! ### Checksums of ranges (R101, R102) -/

theorem ocsum_zero (bs : List Byte) : ocsum 0#16 bs = BitVec.ofNat 16 (fold (sumWords (words bs))) := by
  rw [ocsum, BitVec.toNat_ofNat, Nat.zero_mod, Nat.zero_add]

theorem checksum_eq (bs : List Byte) : checksum bs = ~~~BitVec.ofNat 16 (fold (sumWords (words bs))) := by
  rw [checksum, ocsum_zero]

theorem not_checksum_toNat (bs : List Byte) : (~~~checksum bs).toNat = fold (sumWords (words bs)) := by
  rw [checksum_eq, BitVec.not_not, toNat_ofNat_fold]

/-- The checksum of a range of zeros. -/
theorem checksum_of_zeros {bs : List Byte} (h : ∀ x ∈ bs, x = 0#8) : checksum bs = 0xFFFF#16 := by
  rw [checksum_eq, (sumWords_words_eq_zero bs).mpr h]
  rfl

/-- A stored checksum brings the sum of its range to 0xFFFF: it is the complement of the other words' sum. -/
theorem ocsum_stored_checksum {pre : List Byte} (post : List Byte) (h : pre.length % 2 = 0) :
    ocsum 0#16 (pre ++ be16 (checksum (pre ++ [0#8, 0#8] ++ post)) ++ post) = 0xFFFF#16 := by
  have hsum (v : Half) : sumWords (words (pre ++ be16 v ++ post)) =
      sumWords (words pre) + v.toNat + sumWords (words post) := sumWords_words_replace [v] post h
  have hothers : sumWords (words (pre ++ [0#8, 0#8] ++ post)) = sumWords (words pre) + sumWords (words post) :=
    hsum 0#16
  have hck : (checksum (pre ++ [0#8, 0#8] ++ post)).toNat
      + fold (sumWords (words pre) + sumWords (words post)) = 0xFFFF := by
    rw [← hothers, ← not_checksum_toNat, Nat.add_comm, not_toNat_add]
  rw [ocsum_zero, hsum, Nat.add_right_comm, fold_add_complement hck]

/-! ### The fixup (R104, R105) -/

theorem not_fixup_toNat (hc : Half) (olds news : List Half) :
    (~~~fixup hc olds news).toNat = fold (fixupSum hc olds news) := by
  rw [fixup, BitVec.not_not, toNat_ofNat_fold]

/-- Fixups of two fields in sequence are one fixup of both. -/
theorem fixup_append (hc : Half) (olds news olds' news' : List Half) :
    fixup hc (olds ++ olds') (news ++ news') = fixup (fixup hc olds news) olds' news' := by
  have hsum : fixupSum hc (olds ++ olds') (news ++ news') = fixupSum hc olds news
      + (sumWords (olds'.map (fun o => ~~~o)) + sumWords news') := by
    simp only [fixupSum, List.map_append, sumWords_append]
    omega
  have hnext : fixupSum (fixup hc olds news) olds' news' = fold (fixupSum hc olds news)
      + (sumWords (olds'.map (fun o => ~~~o)) + sumWords news') := by
    rw [fixupSum, not_fixup_toNat, Nat.add_assoc]
  rw [fixup, fixup.eq_def (fixup hc olds news), hsum, hnext, fold_fold_add]

/-- A fixup by the words that stood there adds a multiple of 0xFFFF to the complemented checksum. -/
theorem fixupSum_unchanged (hc : Half) (ws : List Half) :
    fixupSum hc ws ws = (~~~hc).toNat + 0xFFFF * ws.length := by
  rw [fixupSum, Nat.add_assoc, sumWords_map_not_add]

theorem fixup_unchanged {hc : Half} (ws : List Half) (h : hc ≠ 0xFFFF#16) : fixup hc ws ws = hc := by
  have hpos : 0 < (~~~hc).toNat := by
    have := not_toNat_add hc
    have : hc.toNat ≠ 0xFFFF := fun e => h (BitVec.eq_of_toNat_eq e)
    omega
  rw [fixup, fixupSum_unchanged, fold_add_mul _ hpos, fold_of_lt (~~~hc).isLt, BitVec.ofNat_toNat,
    BitVec.setWidth_eq, BitVec.not_not]

theorem fixup_unchanged_zeros {ws : List Half} (h : ws ≠ []) : fixup 0xFFFF#16 ws ws = 0x0000#16 := by
  have hsum : fixupSum 0xFFFF#16 ws ws = 0xFFFF * ws.length :=
    (fixupSum_unchanged _ ws).trans (Nat.zero_add _)
  rw [fixup, hsum, fold_mul (List.length_pos_iff.mpr h)]
  rfl

section Recomputation

variable {pre post : List Byte} {olds news : List Half}

/-- The fixup of a range's checksum folds the changed range's sum with 0xFFFF added for each changed word. -/
theorem fixup_checksum (hpre : pre.length % 2 = 0) :
    fixup (checksum (pre ++ olds.flatMap be16 ++ post)) olds news =
      ~~~BitVec.ofNat 16
        (fold (sumWords (words (pre ++ news.flatMap be16 ++ post)) + 0xFFFF * olds.length)) := by
  have hnot := sumWords_map_not_add olds
  rw [fixup, fixupSum, not_checksum_toNat, sumWords_words_replace olds post hpre,
    sumWords_words_replace news post hpre, Nat.add_assoc, fold_fold_add]
  congr 3
  omega

theorem fixup_checksum_of_nonzero (hpre : pre.length % 2 = 0)
    (h : ∃ x ∈ pre ++ news.flatMap be16 ++ post, x ≠ 0#8) :
    fixup (checksum (pre ++ olds.flatMap be16 ++ post)) olds news =
      checksum (pre ++ news.flatMap be16 ++ post) := by
  have hpos : 0 < sumWords (words (pre ++ news.flatMap be16 ++ post)) := by
    refine Nat.pos_of_ne_zero fun hz => ?_
    obtain ⟨x, hx, hne⟩ := h
    exact hne ((sumWords_words_eq_zero _).mp hz x hx)
  rw [fixup_checksum hpre, fold_add_mul _ hpos, checksum_eq]

theorem fixup_checksum_of_zeros (hpre : pre.length % 2 = 0) (holds : olds ≠ [])
    (h : ∀ x ∈ pre ++ news.flatMap be16 ++ post, x = 0#8) :
    fixup (checksum (pre ++ olds.flatMap be16 ++ post)) olds news = 0x0000#16 := by
  rw [fixup_checksum hpre, (sumWords_words_eq_zero _).mpr h, Nat.zero_add,
    fold_mul (List.length_pos_iff.mpr holds)]
  rfl

end Recomputation

/-! ### The three commands as answers (R101, R104, R107) -/

theorem exec_csumFixup (w : Bool) (s : State) : exec (.csumFixup w) s =
    .next ((s.setRes 0 ((fixup (s.argLow 0) (s.argWords w 1) (s.argWords w 2)).setWidth 32)).complete .ok) := rfl

theorem fixup_one (hc o m : Half) :
    fixup hc [o] [m] = ~~~BitVec.ofNat 16 (fold ((~~~hc).toNat + (~~~o).toNat + m.toNat)) := rfl

theorem fixup_two (hc o1 o2 m1 m2 : Half) :
    fixup hc [o1, o2] [m1, m2] = ~~~BitVec.ofNat 16 (fold
      ((~~~hc).toNat + ((~~~o1).toNat + (~~~o2).toNat) + (m1.toNat + m2.toNat))) := rfl

section Csum

variable {s : State} {bs : List Byte}

theorem exec_csum_ok (h : s.argNat 0 + s.argNat 1 ≤ s.cfg.bufSize)
    (hb : Memory.readBytes s.buf (s.argNat 0) (s.argNat 1) = some bs) :
    exec .csum s = .next ((s.setSums (ocsum (s.argLow 2) bs)).complete .ok) :=
  (execCsum_inRange h).trans (withBytes_eq_next.mpr ⟨bs, hb, rfl⟩)

theorem exec_csum_badRange (h : s.cfg.bufSize < s.argNat 0 + s.argNat 1) :
    exec .csum s = .next (s.complete .badRange) :=
  if_neg fun hr => Nat.not_le.mpr h (rangeOk_iff.mp hr)

theorem exec_csumPseudo_ok (hl : s.argNat 4 ≤ 0xFFFF) (h : s.argNat 3 + s.argNat 4 ≤ s.cfg.bufSize)
    (hb : Memory.readBytes s.buf (s.argNat 3) (s.argNat 4) = some bs) :
    exec .csumPseudo s = .next ((s.setSums
      (pseudoSum (s.arg 0) (s.arg 1) (s.argByte 2) (BitVec.ofNat 16 (s.argNat 4)) bs)).complete .ok) :=
  (execCsumPseudo_inRange hl h).trans (withBytes_eq_next.mpr ⟨bs, hb, rfl⟩)

theorem exec_csumPseudo_badRange (h : 0xFFFF < s.argNat 4 ∨ s.cfg.bufSize < s.argNat 3 + s.argNat 4) :
    exec .csumPseudo s = .next (s.complete .badRange) := by
  by_cases hl : 0xFFFF < s.argNat 4
  · exact if_pos hl
  · have hr : ¬ rangeOk s.cfg (s.argNat 3) (s.argNat 4) = true := fun hr =>
      Nat.not_le.mpr (h.resolve_left hl) (rangeOk_iff.mp hr)
    exact (if_neg hl).trans (if_neg hr)

end Csum

/-- Big-endian: the last byte is the least significant one (R63). -/
theorem beNat_append_singleton (bs : List Byte) (b : Byte) : beNat (bs ++ [b]) = 256 * beNat bs + b.toNat := by
  rw [beNat, List.foldl_append, Nat.mul_comm]
  rfl

end Sys2Proof.Machine

namespace Sys2Proof.Proofs

open Sys2Proof Sys2Proof.Machine

/-- Settles O29: chaining is the split of the sum at an even place; the odd pieces are `01` and `02`. -/
theorem checksumChainingAndVerification : Obligations.ChecksumChainingAndVerification := by
  refine ⟨fun b1 b2 h => (ocsum_append 0#16 b2 h).symm, ⟨[0x01#8], [0x02#8], rfl, by decide⟩,
    fun pre post hpre _ => ?_⟩
  have hsum := ocsum_stored_checksum post hpre
  exact ⟨hsum, by rw [checksum, hsum]; rfl⟩

/-- Settles O31: an unchanged word adds 0xFFFF, and a two-word field is two fields of one word. -/
theorem fixupCornerCases : Obligations.FixupCornerCases := by
  refine ⟨fun hc o => ?_, fun hc o1 o2 m1 m2 => fixup_append hc [o1] [m1] [o2] [m2]⟩
  split
  · subst hc
    exact fixup_unchanged_zeros (List.cons_ne_nil o [])
  · exact fixup_unchanged [o] ‹_›

/-- Settles O32. The last clause is R105's pair of ranges, `00 01` and `00 01 FF FF`, which give every function the
same three inputs and need two answers. -/
theorem fixupEqualsRecomputation : Obligations.FixupEqualsRecomputation := by
  refine ⟨fun pre post olds news hpre _ hne => fixup_checksum_of_nonzero hpre hne,
    fun pre post olds news hpre _ holds hz => ⟨fixup_checksum_of_zeros hpre holds hz, checksum_of_zeros hz⟩,
    fun f => ?_⟩
  have hshort : checksum (be16 0x0001#16 ++ []) = 0xFFFE#16 ∧ checksum (be16 0x0000#16 ++ []) = 0xFFFF#16 := by
    decide
  have hlong : checksum (be16 0x0001#16 ++ [0xFF#8, 0xFF#8]) = 0xFFFE#16 ∧
      checksum (be16 0x0000#16 ++ [0xFF#8, 0xFF#8]) = 0x0000#16 := by decide
  by_cases hf : f 0xFFFE#16 0x0001#16 0x0000#16 = 0xFFFF#16
  · refine ⟨[0xFF#8, 0xFF#8], 0x0001#16, 0x0000#16, ?_⟩
    rw [hlong.1, hlong.2, hf]
    decide
  · refine ⟨[], 0x0001#16, 0x0000#16, ?_⟩
    rwa [hshort.1, hshort.2]

/-- Settles O28, from the range check and the laws of BUF. -/
theorem csumResult : Obligations.CsumResult :=
  ⟨rfl, fun s => ⟨fun _ h hb => exec_csum_ok h hb, exec_csum_badRange, rfl,
    fun a n bs => readBytes_eq_some s.buf n a bs, fun _ _ => rfl, rfl, beNat_append_singleton⟩⟩

/-- Settles O30: the command's answer with the fixup's number written out for one word and for two. -/
theorem csumFixupResult : Obligations.CsumFixupResult := by
  refine ⟨rfl, rfl, fun s => ?one, fun s => ?two⟩
  case one => exact fixup_one _ _ _ ▸ exec_csumFixup false s
  case two => exact fixup_two _ _ _ _ _ ▸ exec_csumFixup true s

/-- Settles O33, from the length check, the range check and the definition of the pseudo-header. -/
theorem csumPseudoResult : Obligations.CsumPseudoResult := by
  refine ⟨rfl, fun s => ⟨fun bs hl h hb sum hsum => ?_, exec_csumPseudo_badRange, fun _ _ _ _ _ => rfl⟩⟩
  rw [hsum]
  exact exec_csumPseudo_ok hl h hb

end Sys2Proof.Proofs

/-! ## Proofs: ARP cache (spec 41_arp_cache.md) -/

namespace Sys2Proof.Machine

open Sys2Proof Sys2Proof.Safety

/-! ### ARP_LOOKUP's results (R122, R127) -/

/-- RES0 of ARP_LOOKUP is 1 only on a hit, and then RES3 is the index of the entry. -/
theorem setLookup_res_of_hit {s : State} {hit : Option Nat} (h : (s.setLookup hit).res[0] = 1#32) :
    ∃ i, hit = some i ∧ (s.setLookup hit).res[3] = BitVec.ofNat 32 i := by
  cases hit with
  | none => simp [State.setLookup] at h
  | some i => exact ⟨i, rfl, by simp [State.setLookup]⟩

/-- The indices of the cache are register values (R5: ARP_ENTRIES is at most 255). -/
theorem toNat_ofNat_arpIndex {s : State} {i : Nat} {e : ArpEntry} (hs : NseInv s) (he : s.arp[i]? = some e) :
    (BitVec.ofNat 32 i).toNat = i := by
  obtain ⟨-, -, -, -, hle, -⟩ := legal_iff.mp hs.cfgLegal
  obtain ⟨hlt, -⟩ := List.getElem?_eq_some_iff.mp he
  rw [hs.arpLength] at hlt
  exact Nat.mod_eq_of_lt (by omega)

/-! ### The entry ARP_UPDATE writes (R123, R124) -/

theorem onSubnet_iff {s : State} {ip : Word} :
    s.onSubnet ip = true ↔ ip &&& s.latMask = s.latIp &&& s.latMask := beq_iff_eq

/-- An entry is fresh exactly when it is valid and within the freshness window (R121). -/
theorem arpEntry_fresh_iff {c : Config} {now : Word} {e : ArpEntry} :
    e.fresh c now = true ↔ e.valid = true ∧ age c now e.tick ≤ c.arpFresh := by
  simp only [ArpEntry.fresh, Bool.and_eq_true, decide_eq_true_eq]

/-- The three searches of R124, in its order, and their outcome codes. -/
theorem arpTarget_eq (s : State) (ip : Word) :
    s.arpTarget ip =
      ((lowest (fun e => e.valid && e.ip == ip) s.arp).map (·, 0#32)).or
        (((lowest (fun e => !e.valid) s.arp).map (·, 1#32)).or
          ((lowest (fun e => !e.fresh s.cfg s.now) s.arp).map (·, 2#32))) := by
  unfold State.arpTarget
  cases lowest (fun e => e.valid && e.ip == ip) s.arp with
  | some i => rfl
  | none =>
    cases lowest (fun e => !e.valid) s.arp with
    | some i => rfl
    | none => cases lowest (fun e => !e.fresh s.cfg s.now) s.arp <;> rfl

section ArpTarget

variable {s : State} {ip : Word} {i : Nat} {e : ArpEntry}

/-- UPDATED: the lowest valid entry of the address. -/
theorem arpTarget_updated (he : s.arp[i]? = some e) (hv : e.valid = true) (hip : e.ip = ip)
    (hlow : ∀ j f, j < i → s.arp[j]? = some f → ¬ (f.valid = true ∧ f.ip = ip)) :
    s.arpTarget ip = some (i, 0#32) := by
  have hsame : lowest (fun e => e.valid && e.ip == ip) s.arp = some i :=
    lowest_eq_some.mpr ⟨e, he, by simp [hv, hip], fun j f hj hf => by simpa using hlow j f hj hf⟩
  rw [arpTarget_eq, hsame]
  rfl

/-- No valid entry holds the address, so the first search fails. -/
theorem lowest_address_eq_none (hmiss : ∀ f ∈ s.arp, ¬ (f.valid = true ∧ f.ip = ip)) :
    lowest (fun e => e.valid && e.ip == ip) s.arp = none :=
  lowest_eq_none.mpr fun f hf => by simpa using hmiss f hf

/-- Every entry is valid, so the search for an empty one fails. -/
theorem lowest_empty_eq_none (hfull : ∀ f ∈ s.arp, f.valid = true) :
    lowest (fun e => !e.valid) s.arp = none :=
  lowest_eq_none.mpr fun f hf => by simp [hfull f hf]

/-- INSERTED: the lowest empty entry, where no valid one holds the address. -/
theorem arpTarget_inserted (hmiss : ∀ f ∈ s.arp, ¬ (f.valid = true ∧ f.ip = ip)) (he : s.arp[i]? = some e)
    (hv : e.valid = false) (hlow : ∀ j f, j < i → s.arp[j]? = some f → f.valid = true) :
    s.arpTarget ip = some (i, 1#32) := by
  have hempty : lowest (fun e => !e.valid) s.arp = some i :=
    lowest_eq_some.mpr ⟨e, he, by simp [hv], fun j f hj hf => by simp [hlow j f hj hf]⟩
  rw [arpTarget_eq, lowest_address_eq_none hmiss, hempty]
  rfl

/-- REPLACED: the lowest stale entry, where every one is valid and none holds the address. -/
theorem arpTarget_replaced (hmiss : ∀ f ∈ s.arp, ¬ (f.valid = true ∧ f.ip = ip))
    (hfull : ∀ f ∈ s.arp, f.valid = true) (he : s.arp[i]? = some e) (hage : s.cfg.arpFresh < age s.cfg s.now e.tick)
    (hlow : ∀ j f, j < i → s.arp[j]? = some f → age s.cfg s.now f.tick ≤ s.cfg.arpFresh) :
    s.arpTarget ip = some (i, 2#32) := by
  have hstale : lowest (fun e => !e.fresh s.cfg s.now) s.arp = some i := by
    refine lowest_eq_some.mpr ⟨e, he, ?_, fun j f hj hf => ?_⟩
    · simp [ArpEntry.fresh, hage]
    · simp [arpEntry_fresh_iff.mpr ⟨hfull f (List.mem_of_getElem? hf), hlow j f hj hf⟩]
  rw [arpTarget_eq, lowest_address_eq_none hmiss, lowest_empty_eq_none hfull, hstale]
  rfl

/-- No entry to write: every one is valid and fresh, and none holds the address. -/
theorem arpTarget_eq_none (hmiss : ∀ f ∈ s.arp, ¬ (f.valid = true ∧ f.ip = ip))
    (hfresh : ∀ f ∈ s.arp, f.valid = true ∧ age s.cfg s.now f.tick ≤ s.cfg.arpFresh) :
    s.arpTarget ip = none := by
  have hstale : lowest (fun e => !e.fresh s.cfg s.now) s.arp = none :=
    lowest_eq_none.mpr fun f hf => by simp [arpEntry_fresh_iff.mpr (hfresh f hf)]
  rw [arpTarget_eq, lowest_address_eq_none hmiss, lowest_empty_eq_none fun f hf => (hfresh f hf).1, hstale]
  rfl

end ArpTarget

/-! ### ARP_UPDATE's answer (R124) -/

theorem exec_arpUpdate_writes {s : State} {i : Nat} {code : Word} (hon : s.onSubnet (s.arg 0) = true)
    (ht : s.arpTarget (s.arg 0) = some (i, code)) :
    exec .arpUpdate s = .next ((((s.setArp i ⟨true, s.arg 0, s.argMac, s.now⟩).setRes 0 code).setRes 1
      (BitVec.ofNat 32 i)).complete .ok) := by
  simp only [exec, execArpUpdate, State.arpUpsert, hon, ht, if_true, succeed]

theorem exec_arpUpdate_full {s : State} (hon : s.onSubnet (s.arg 0) = true) (ht : s.arpTarget (s.arg 0) = none) :
    exec .arpUpdate s = .next (((s.setRes 0 4#32).setRes 1 noIndex).complete .ok) := by
  simp only [exec, execArpUpdate, State.arpUpsert, hon, ht, if_true, succeed]

theorem exec_arpUpdate_offSubnet {s : State} (hoff : ¬ s.onSubnet (s.arg 0) = true) :
    exec .arpUpdate s = .next (((s.setRes 0 3#32).setRes 1 noIndex).complete .ok) :=
  congrArg succeed (if_neg hoff)

/-! ### ARP_READ's answer (R125) -/

theorem exec_arpRead_entry {s : State} {e : ArpEntry} (he : s.arp[(s.argByte 0).toNat]? = some e) :
    exec .arpRead s = .next ((s.setEntry e).complete .ok) := by
  simp only [exec, execArpRead, he, succeed]

theorem exec_arpRead_badIndex {s : State} (he : s.arp[(s.argByte 0).toNat]? = none) :
    exec .arpRead s = .next (s.complete .badIndex) := by
  simp only [exec, execArpRead, he, raise]

/-! ### Valid entries stay valid (R126) -/

/-- Every entry valid in the first cache is valid in the second. -/
def keepsArpValid (l m : List ArpEntry) : Prop :=
  ∀ (i : Nat) (e : ArpEntry), l[i]? = some e → e.valid = true → ∃ f, m[i]? = some f ∧ f.valid = true

theorem keepsArpValid_refl (l : List ArpEntry) : keepsArpValid l l := fun _ e he hv => ⟨e, he, hv⟩

theorem keepsArpValid_of_eq {l m : List ArpEntry} (h : m = l) : keepsArpValid l m := h ▸ keepsArpValid_refl l

/-- A valid entry written anywhere leaves every valid entry valid. -/
theorem keepsArpValid_set (l : List ArpEntry) (k : Nat) {n : ArpEntry} (hn : n.valid = true) :
    keepsArpValid l (l.set k n) := by
  intro i e he hv
  by_cases hki : k = i
  · subst hki
    obtain ⟨hlt, -⟩ := List.getElem?_eq_some_iff.mp he
    exact ⟨n, List.getElem?_set_self hlt, hn⟩
  · exact ⟨e, (List.getElem?_set_ne hki).trans he, hv⟩

/-- ARP_UPDATE writes no entry but a valid one. -/
theorem keepsArpValid_arpUpsert (s : State) (ip : Word) (mac : Mac) :
    keepsArpValid s.arp (s.arpUpsert ip mac).arp := by
  obtain ⟨i, code, -, -, h⟩ | ⟨code, h⟩ := arpUpsert_cases s ip mac
  · rw [h]
    exact keepsArpValid_set s.arp i rfl
  · rw [h]
    exact keepsArpValid_refl s.arp

theorem writesArp_iff {i : Instr} : writesArp i = true ↔ i = .arpUpdate := by
  cases i <;> simp [writesArp]

theorem exec_keepsArpValid {i : Instr} {s t : State} (h : exec i s = .next t) : keepsArpValid s.arp t.arp := by
  by_cases hi : writesArp i = true
  · obtain rfl := writesArp_iff.mp hi
    obtain rfl := execArpUpdate_cases h
    exact keepsArpValid_arpUpsert s _ _
  · obtain ⟨u, code, hu, rfl⟩ := exec_commandWrites h
    exact keepsArpValid_of_eq (hu.arp_eq (by simpa using hi))

theorem engineStep_keepsArpValid {s t : State} (h : engineStep s = .next t) : keepsArpValid s.arp t.arp := by
  obtain ⟨-, _, -, hx⟩ | ⟨-, -, rfl⟩ | ⟨-, rfl⟩ := engineStep_cases h
  · exact exec_keepsArpValid hx
  · exact keepsArpValid_refl _
  · exact keepsArpValid_refl _

@[simp] theorem writeCmd_arp (s : State) (w : Word) : (s.writeCmd w).arp = s.arp := by
  unfold State.writeCmd
  split <;> rfl

@[simp] theorem readBuf_arp (s : State) (a : Nat) : (s.readBuf a).arp = s.arp := by
  unfold State.readBuf
  split <;> rfl

/-- No register write reaches the cache but a soft reset (R24, R40). -/
theorem writeReg_arp (s : State) (r : Reg) (v : Word) :
    (r = .ctrl ∧ v.getLsbD 1 = true) ∨ (s.writeReg r v).arp = s.arp := by
  cases r with
  | cmd => exact .inr (writeCmd_arp s v)
  | ctrl =>
    by_cases hv : v.getLsbD 1 = true
    · exact .inl ⟨rfl, hv⟩
    · refine .inr ?_
      show (s.writeCtrl v).arp = s.arp
      rw [writeCtrl_of_noReset (by simpa using hv)]
  | _ => exact .inr rfl

theorem hostAccess_arp {a : HostAccess} {s t : State} (h : hostAccess a s = .next t) :
    resetEvent (.host a) ∨ t.arp = s.arp := by
  obtain ⟨_, _, _, -, -, rfl⟩ | ⟨_, _, v, r, rfl, hr, rfl⟩ | ⟨_, -, -, -, rfl⟩ | ⟨_, _, -, -, -, rfl⟩ :=
    hostAccess_cases h
  · exact .inr rfl
  · obtain ⟨rfl, hv⟩ | hsame := writeReg_arp s r v
    · obtain ⟨rfl, -, -, hoff⟩ := regAt_low hr
      obtain rfl := hoff rfl
      exact .inl (.inr ⟨v, rfl, hv⟩)
    · exact .inr hsame
  · exact .inr (readBuf_arp _ _)
  · exact .inr rfl

theorem perform_keepsArpValid {e : Event} {s t : State} (h : perform e s = .next t) :
    resetEvent e ∨ keepsArpValid s.arp t.arp := by
  obtain ⟨-, hx⟩ | ⟨-, rfl⟩ | ⟨rfl, -⟩ | ⟨_, rfl, ha⟩ := perform_cases h
  · exact .inr (engineStep_keepsArpValid hx)
  · exact .inr (keepsArpValid_refl _)
  · exact .inl (.inl rfl)
  · exact (hostAccess_arp ha).imp_right keepsArpValid_of_eq

theorem step_keepsArpValid {s t : State} (h : step s = .next t) :
    keepsArpValid s.arp t.arp ∨ ∃ e rest, s.agenda = e :: rest ∧ resetEvent e := by
  obtain ⟨-, hx⟩ | ⟨e, rest, ha, hp⟩ := step_cases h
  · exact .inl (engineStep_keepsArpValid hx)
  · obtain hr | hkeep := perform_keepsArpValid hp
    · exact .inr ⟨e, rest, ha, hr⟩
    · exact .inl hkeep

end Sys2Proof.Machine

namespace Sys2Proof.Proofs

open Sys2Proof Sys2Proof.Machine Sys2Proof.Safety

/-- Settles O35: RES0 = 1 means a hit, the search finds only entries that may answer, and RES3 is the index found. -/
theorem arpLookupNeverAnswersStale : Obligations.ArpLookupNeverAnswersStale := by
  intro s t hs h hres
  obtain rfl := execArpLookup_cases h
  obtain ⟨i, hhit, hindex⟩ := setLookup_res_of_hit hres
  obtain ⟨e, he, ⟨hv, hip, hage⟩, -⟩ := arpHit_eq_some.mp hhit
  refine ⟨e, ?_, hv, hip, hage⟩
  rw [complete_res, hindex, toNat_ofNat_arpIndex hs he]
  exact he

/-- Settles O36: the subnet check, then the entry the three searches choose. -/
theorem arpUpdateOutcomes : Obligations.ArpUpdateOutcomes := by
  refine ⟨rfl, fun s i e on new hon hnew => ?_⟩
  rw [← onSubnet_iff] at hon
  subst hnew
  refine ⟨fun hoff => ?offSubnet, fun h he hv hip hlow => ?updated, fun h hmiss he hv hlow => ?inserted,
    fun h hmiss hfull he hage hlow => ?replaced, fun h hmiss hfresh => ?full⟩
  case offSubnet => exact exec_arpUpdate_offSubnet (mt hon.mpr hoff)
  case updated => exact exec_arpUpdate_writes (hon.mp h) (arpTarget_updated he hv hip hlow)
  case inserted => exact exec_arpUpdate_writes (hon.mp h) (arpTarget_inserted hmiss he hv hlow)
  case replaced => exact exec_arpUpdate_writes (hon.mp h) (arpTarget_replaced hmiss hfull he hage hlow)
  case full => exact exec_arpUpdate_full (hon.mp h) (arpTarget_eq_none hmiss hfresh)

/-- Settles O37: the entry at the index, and the table's size under the invariant. -/
theorem arpReadResult : Obligations.ArpReadResult := by
  refine ⟨rfl, fun s hs => ⟨fun e he => exec_arpRead_entry he, fun hlt => ?_, fun hge => ?_⟩⟩
  · exact Option.isSome_iff_exists.mpr ⟨_, List.getElem?_eq_getElem (hs.arpLength ▸ hlt)⟩
  · exact exec_arpRead_badIndex (List.getElem?_eq_none (hs.arpLength ▸ hge))

/-- Settles O38: ARP_UPDATE writes valid entries only, and nothing else but a reset writes the cache. -/
theorem arpEntriesStayValid : Obligations.ArpEntriesStayValid :=
  fun _ _ i e h he hv => (step_keepsArpValid h).imp_left fun hkeep => hkeep i e he hv

end Sys2Proof.Proofs

/-! ## Proofs: packet builder (spec 42_packet_builder.md) -/

namespace Sys2Proof.Machine

open Sys2Proof Sys2Proof.Safety

/-! ### Numbers as bytes (R64) -/

/-- Two bytes are the ones of the number they spell (R64). -/
theorem be16_beNat : ∀ {bs : List Byte}, bs.length = 2 → be16 (BitVec.ofNat 16 (beNat bs)) = bs
  | [x, y], _ => by
    have hx := x.isLt
    have hy := y.isLt
    simp only [be16, beNat, List.foldl_cons, List.foldl_nil, List.cons.injEq, and_true]
    constructor <;> apply BitVec.eq_of_toNat_eq <;>
      simp only [BitVec.extractLsb'_toNat, BitVec.toNat_ofNat, Nat.shiftRight_eq_div_pow] <;> omega

theorem be16_injective : Function.Injective be16 := fun v w h => by
  simpa using congrArg words h

/-! ### Protocol numbers (R154, R222) -/

/-- The number of a protocol names it, and no other number does. -/
theorem proto_ofNumber_eq_some {n : Byte} {p : Proto} : Proto.ofNumber n = some p ↔ p.number = n := by
  constructor
  · intro h
    unfold Proto.ofNumber at h
    split at h <;> cases h <;> rfl
  · rintro rfl
    cases p <;> rfl

/-! ### What a frame's emission leaves in the state (R154, R156, R158) -/

@[simp] theorem complete_scb? (s : State) (code : ErrCode) (sel : Byte) :
    (s.complete code).scb? sel = s.scb? sel := rfl

section Emit

variable (s : State) (sel : Byte) (p : Proto) (b : Scb) (o : Nat) (frame : List Byte)

@[simp] theorem emit_isnInputs : (s.emit sel p b o frame).isnInputs = s.isnInputs := by simp [State.emit]

@[simp] theorem emit_isnDraws : (s.emit sel p b o frame).isnDraws = s.isnDraws := by simp [State.emit]

/-- The emission writes the tables as the update of IPID alone does. -/
theorem emit_scb? (sel' : Byte) :
    (s.emit sel p b o frame).scb? sel' = (s.setScb sel { b with ipid := b.ipid + 1#16 }).scb? sel' := by
  rw [emit_eq]
  exact scb?_congr rfl rfl sel'

theorem emit_res : (s.emit sel p b o frame).res =
    (((s.res.set 0 (BitVec.ofNat 32 (frameLen p b))).set 1 (BitVec.ofNat 32 (totalLen p b))).set 2
      (b.mtu.setWidth 32)).set 3 (bit (fragNeeded b.mtu (totalLen p b))) := by
  simp [State.emit]

end Emit

/-- FRAG_NEEDED as a register value (R158). -/
theorem bit_fragNeeded (mtu : Half) (n : Nat) :
    bit (fragNeeded mtu n) = if mtu ≠ 0#16 ∧ mtu.toNat < n then 1#32 else 0#32 := by
  simp [bit, fragNeeded]

/-- A completed emission of a frame is what R154 to R158 ask for. -/
theorem frameSent_emit {s : State} {sel : Byte} {p : Proto} {b : Scb} (o : Nat) {frame : List Byte}
    (hb : s.scb? sel = some b) (hlen : frame.length = frameLen p b) :
    FrameSent s ((s.emit sel p b o frame).complete .ok) sel p b o frame where
  length := hlen
  inside k hk := by
    rw [complete_buf, emit_buf]
    exact read_writeBytes_inside frame s.buf o k hk
  outside x hx := by
    rw [complete_buf, emit_buf]
    exact read_writeBytes_outside frame s.buf o x hx
  ipid := by rw [complete_scb?, emit_scb?, scb?_setScb_same s sel _ b hb]
  otherScbs sel' h := by rw [complete_scb?, emit_scb?, scb?_setScb_other s _ h]
  tableSize := by rw [complete_sess, emit_sess_length]
  arp := by rw [complete_arp, emit_arp]
  res0 := by simp [emit_res]
  res1 := by simp [emit_res]
  res2 := by simp [emit_res]
  res3 := by simp [emit_res, bit_fragNeeded]
  otherRes k hk := by
    have hne : k ≠ 0 ∧ k ≠ 1 ∧ k ≠ 2 ∧ k ≠ 3 := by omega
    obtain ⟨h0, h1, h2, h3⟩ := hne
    rw [complete_res, emit_res]
    exact (getElem_set_other _ _ h3).trans <| (getElem_set_other _ _ h2).trans <|
      (getElem_set_other _ _ h1).trans (getElem_set_other _ _ h0)
  isn := by simp
  status := ⟨rfl, rfl, rfl, rfl⟩
  rest := by simp

/-! ### BUILD check by check (R159) -/

section Build

variable {s : State} {b : Scb} {p : Proto}

/-- The end of BUILD and REPLY with a payload that reads (R154). -/
theorem buildFrame_of_payload {payload : List Byte} (sel : Byte) (e : Ends) (o : Nat)
    (h : payloadBytes s.buf p b = some payload) :
    buildFrame s sel p b e o =
      .next ((s.emit sel p b o (frameBytes s.cfg s.now p b e payload)).complete .ok) := by
  rw [buildFrame, h]
  rfl

theorem exec_build_badProto (hb : s.scb? (s.argByte 0) = some b) (hp : Proto.ofNumber b.proto = none) :
    exec .build s = .next (s.complete .badProto) := by
  simp only [exec, execBuild, hb, hp, raise]

theorem exec_build_badRange (hb : s.scb? (s.argByte 0) = some b) (hp : Proto.ofNumber b.proto = some p)
    (hr : ¬ builderRangesOk s.cfg p b (s.argNat 1) (s.argNat 2) = true) :
    exec .build s = .next (s.complete .badRange) := by
  simp only [exec, execBuild, hb, hp, if_neg hr, raise]

theorem exec_build_allocFail (hb : s.scb? (s.argByte 0) = some b) (hp : Proto.ofNumber b.proto = some p)
    (hr : builderRangesOk s.cfg p b (s.argNat 1) (s.argNat 2) = true) (hcap : s.argNat 2 < frameLen p b) :
    exec .build s = .next (s.complete .allocFail) := by
  simp only [exec, execBuild, hb, hp, if_pos hr, if_pos hcap, raise]

/-- The range checks fail exactly where one of the three does (R159, step 4). -/
theorem not_builderRangesOk_iff {c : Config} {o cap : Nat} :
    ¬ builderRangesOk c p b o cap = true ↔ c.bufSize < o + cap ∨
      (b.txptr ≠ 0#32 ∧ c.bufSize < b.txptr.toNat + payloadLen p b) ∨ 0xFFFF < totalLen p b := by
  rw [builderRangesOk_iff, not_and_or, not_and_or, not_or, Nat.not_le, Nat.not_le, Nat.not_le]

end Build

/-! ### What REPLY finds in a region all of whose bytes were written (R155) -/

section WrittenInbound

variable {m : List Host.Cell} {i n : Nat} {f : List Byte} (hf : Memory.readBytes m i n = some f)
include hf

/-- A part of the region reads as the number its bytes spell. -/
theorem readNat_slice {k l : Nat} (h : k + l ≤ n) : Memory.readNat m (i + k) l = some (beNat (slice f k l)) := by
  rw [Memory.readNat, readBytes_slice hf h]
  rfl

/-- Inside the region BUF holds the frame's bytes. -/
theorem read_region {k : Nat} (h : k < n) : Memory.read m (i + k) = f[k]? :=
  ((readBytes_eq_some m n i f).mp hf).2 k h

/-- The check accepts a TCP frame. -/
theorem inboundCheck_of_tcpFrame {ihl : Nat} (ht : tcpFrame f ihl) : inboundCheck m i n = .good ihl := by
  obtain ⟨hlen, htype, ⟨vh, hvh, h4, rfl⟩, h5, hroom, hproto⟩ := ht
  rw [readBytes_length hf] at hlen hroom
  have htype' : Memory.readBytes m (i + 12) 2 = some [0x08#8, 0x00#8] := htype ▸ readBytes_slice hf (by omega)
  have hvh' : Memory.read m (i + 14) = some vh := (read_region hf (by omega)).trans hvh
  obtain ⟨-, hgood⟩ := inboundCheck_of_header hlen htype' hvh' h4 h5 hroom
  exact hgood ((read_region hf (by omega)).trans hproto)

/-- The check rejects every other byte string, because no byte of it is unwritten. -/
theorem inboundCheck_of_not_tcpFrame (ht : ∀ ihl, ¬ tcpFrame f ihl) : inboundCheck m i n = .bad := by
  have hlen := readBytes_length hf
  unfold inboundCheck
  split
  · rfl
  rename_i hn
  have hvh : f[14]? = some f[14] := List.getElem?_eq_getElem (by omega)
  have hproto : f[23]? = some f[23] := List.getElem?_eq_getElem (by omega)
  simp only [readNat_slice hf (show 12 + 2 ≤ n by omega), readNat_byte hf hvh]
  split
  · rename_i htype
    have htype' : slice f 12 2 = [0x08#8, 0x00#8] := by
      rw [← be16_beNat (bs := slice f 12 2) (by simp [slice]; omega), htype]
      rfl
    unfold inboundIp
    split
    · rfl
    simp only [readNat_byte hf hproto]
    split
    · rename_i hip htcp
      have hnum : f[23] = 6#8 := BitVec.eq_of_toNat_eq htcp
      exact absurd ⟨by omega, htype', ⟨f[14], hvh, by omega, rfl⟩, by omega, by omega, hnum ▸ hproto⟩ (ht _)
    · rfl
  · rfl

/-- The addresses and ports REPLY reads from a TCP frame are the frame's, swapped. -/
theorem replyEnds_of_tcpFrame {ihl : Nat} (ht : tcpFrame f ihl) : replyEnds m i ihl = some (swappedEnds f ihl) := by
  obtain ⟨hlen, -, -, -, hroom, -⟩ := ht
  rw [readBytes_length hf] at hlen hroom
  have hsmac : Memory.readNat m i 6 = some (beNat (slice f 0 6)) := readNat_slice hf (k := 0) (by omega)
  have hdport := readNat_slice hf (k := 14 + 4 * ihl) (l := 2) (by omega)
  have hsport := readNat_slice hf (k := 14 + 4 * ihl + 2) (l := 2) (by omega)
  rw [← Nat.add_assoc] at hdport
  rw [← Nat.add_assoc, ← Nat.add_assoc] at hsport
  simp only [replyEnds, readNat_slice hf (show 6 + 6 ≤ n by omega), hsmac,
    readNat_slice hf (show 30 + 4 ≤ n by omega), readNat_slice hf (show 26 + 4 ≤ n by omega), hsport, hdport]
  rfl

end WrittenInbound

/-! ### The transport part of a frame (R140, R143 to R149) -/

section FrameParts

variable (c : Config) (now : Word) (p : Proto) (b : Scb) (e : Ends) (payload : List Byte)

/-- The transport header and the payload follow the 34 bytes of the Ethernet and IPv4 headers. -/
theorem drop_frameBytes (k : Nat) : (frameBytes c now p b e payload).drop (34 + k) =
    (transportHeader c now p b e (transportChecksum c now p b e payload) ++ payload).drop k := by
  rw [frameBytes, List.append_assoc]
  exact List.drop_length_add_append (l₁ := ethHeader e ++ ipHeader p b e (ipChecksum p b e)) k

theorem slice_frameBytes_transport (k n : Nat) : slice (frameBytes c now p b e payload) (34 + k) n =
    slice (transportHeader c now p b e (transportChecksum c now p b e payload) ++ payload) k n :=
  congrArg (List.take n) (drop_frameBytes c now p b e payload k)

/-- Both headers with ports begin with them (R144, R145). -/
theorem slice_frameBytes_ports (hp : p ≠ .icmp) :
    slice (frameBytes c now p b e payload) 34 4 = be16 e.sport ++ be16 e.dport := by
  refine (slice_frameBytes_transport c now p b e payload 0 4).trans ?_
  cases p with
  | icmp => exact absurd rfl hp
  | udp => rfl
  | tcp => rfl

end FrameParts

/-- The data offset is 10 words on a SYN and 8 otherwise (R145). -/
theorem dataOffset_eq (b : Scb) : dataOffset b = if b.flags.getLsbD 1 then 0xA0#8 else 0x80#8 := by
  unfold dataOffset optionLen isSyn
  cases b.flags.getLsbD 1 <;> rfl

/-! ### Payloads (R149) -/

theorem payloadLen_of_ne_tcp {p : Proto} (b : Scb) (h : p ≠ .tcp) : payloadLen p b = b.txlen.toNat :=
  if_neg fun hclamp => h hclamp.1

theorem payloadLen_tcp_unknown {b : Scb} (h : b.peerMss = 0#16) : payloadLen .tcp b = b.txlen.toNat :=
  if_neg fun hclamp => hclamp.2.1 h

theorem payloadLen_tcp_known {b : Scb} (h : b.peerMss ≠ 0#16) :
    payloadLen .tcp b = min b.txlen.toNat b.peerMss.toNat := by
  unfold payloadLen
  split
  · omega
  · rename_i hfits
    have hle : ¬ b.peerMss.toNat < b.txlen.toNat := fun hlt => hfits ⟨rfl, h, hlt⟩
    omega

theorem filler_getElem? {n k : Nat} (h : k < n) : (filler n)[k]? = some (BitVec.ofNat 8 (k % 256)) := by
  have hmod : BitVec.ofNat 8 k = BitVec.ofNat 8 (k % 256) := BitVec.eq_of_toNat_eq (by simp)
  simp [filler, h, hmod]

/-! ### A checksum as it stands in its own range (R102, R152, R153) -/

/-- A byte string with a 16-bit word in it at an even offset. -/
def hasAlignedField (f : Half → List Byte) : Prop :=
  ∃ pre post : List Byte, pre.length % 2 = 0 ∧ ∀ v, f v = pre ++ be16 v ++ post

namespace hasAlignedField

variable {f : Half → List Byte}

theorem append (h : hasAlignedField f) (bs : List Byte) : hasAlignedField fun v => f v ++ bs := by
  obtain ⟨pre, post, heven, hf⟩ := h
  refine ⟨pre, post ++ bs, heven, fun v => ?_⟩
  change f v ++ bs = _
  rw [hf, List.append_assoc]

theorem prepend (h : hasAlignedField f) {bs : List Byte} (hbs : bs.length % 2 = 0) :
    hasAlignedField fun v => bs ++ f v := by
  obtain ⟨pre, post, heven, hf⟩ := h
  refine ⟨bs ++ pre, post, by rw [List.length_append]; omega, fun v => ?_⟩
  change bs ++ f v = _
  rw [hf, ← List.append_assoc, ← List.append_assoc]

/-- The range sums to 0xFFFF with its checksum in the field. -/
theorem ocsum_checksum (h : hasAlignedField f) : ocsum 0#16 (f (checksum (f 0#16))) = 0xFFFF#16 := by
  obtain ⟨pre, post, heven, hf⟩ := h
  rw [hf, hf]
  exact ocsum_stored_checksum post heven

/-- 0xFFFF in the field does for a checksum of 0x0000: both are the zero of ones' complement. -/
theorem ocsum_ones (h : hasAlignedField f) (hz : checksum (f 0#16) = 0#16) : ocsum 0#16 (f 0xFFFF#16) = 0xFFFF#16 := by
  obtain ⟨pre, post, heven, hf⟩ := h
  have hsum (v : Half) : sumWords (words (f v)) = sumWords (words pre) + v.toNat + sumWords (words post) := by
    rw [hf]
    exact sumWords_words_replace [v] post heven
  have hfold : fold (sumWords (words pre) + sumWords (words post)) = 0xFFFF := by
    have hnot := not_checksum_toNat (f 0#16)
    rw [hz, hsum] at hnot
    exact hnot.symm
  have hpos : fold (sumWords (words pre) + sumWords (words post)) ≠ 0 := by omega
  rw [ocsum_zero, hsum, Nat.add_right_comm]
  exact congrArg _ ((fold_add_mul 1 (Nat.pos_of_ne_zero (mt fold_eq_zero.mpr hpos))).trans hfold)

end hasAlignedField

theorem checksum_of_ocsum {bs : List Byte} (h : ocsum 0#16 bs = 0xFFFF#16) : checksum bs = 0x0000#16 := by
  rw [checksum, h]
  rfl

theorem ipHeader_hasAlignedField (p : Proto) (b : Scb) (e : Ends) : hasAlignedField (ipHeader p b e) :=
  ⟨[0x45#8, 0x00#8] ++ be16 (BitVec.ofNat 16 (totalLen p b)) ++ be16 b.ipid ++ be16 (fragmentWord b.fragOk)
    ++ [b.ttl, p.number], be32 e.sip ++ be32 e.dip, by simp, fun _ => rfl⟩

section Transport

variable (c : Config) (now : Word) (p : Proto) (b : Scb) (e : Ends) (payload : List Byte)

/-- The checksum field stands at offset 2, 6 or 16 of the transport header. -/
theorem transportHeader_hasAlignedField : hasAlignedField (transportHeader c now p b e) := by
  cases p with
  | icmp => exact ⟨[8#8, 0#8], be16 b.lport ++ be16 (b.seq.extractLsb' 0 16), rfl, fun _ => rfl⟩
  | udp =>
    exact ⟨be16 e.sport ++ be16 e.dport ++ be16 (BitVec.ofNat 16 (8 + payloadLen .udp b)), [], by simp,
      fun _ => rfl⟩
  | tcp =>
    exact ⟨be16 e.sport ++ be16 e.dport ++ be32 b.seq ++ be32 b.ack ++ [dataOffset b, b.flags] ++ be16 b.window,
      be16 0#16 ++ tcpOptions c now b, by simp, fun _ => rfl⟩

/-- An ICMP message verifies alone (R153). -/
theorem icmp_verifies :
    checksum (transportHeader c now .icmp b e (transportChecksum c now .icmp b e payload) ++ payload) = 0x0000#16 :=
  checksum_of_ocsum ((transportHeader_hasAlignedField c now .icmp b e).append payload).ocsum_checksum

/-- What the checksum field of UDP holds: 0xFFFF for a computed 0 where UDP_ZERO_SUBST says so (R153). -/
theorem transportChecksum_udp {ck : Half} (h : ck = ~~~transportSum c now .udp b e payload) :
    (ck ≠ 0x0000#16 ∨ c.udpZeroSubst = false → transportChecksum c now .udp b e payload = ck) ∧
      (ck = 0x0000#16 → c.udpZeroSubst = true → transportChecksum c now .udp b e payload = 0xFFFF#16) := by
  subst h
  refine ⟨fun hkeep => if_neg fun hsubst => ?_, fun hz hu => if_pos ?_⟩
  · obtain ⟨hu, hz⟩ := Bool.and_eq_true_iff.mp hsubst
    obtain hne | hno := hkeep
    · exact hne (beq_iff_eq.mp hz)
    · exact absurd hu (by simp [hno])
  · exact Bool.and_eq_true_iff.mpr ⟨hu, beq_iff_eq.mpr hz⟩

/-- With UDP_ZERO_SUBST the field of UDP is not 0. -/
theorem transportChecksum_udp_ne_zero (h : c.udpZeroSubst = true) :
    transportChecksum c now .udp b e payload ≠ 0x0000#16 := by
  obtain ⟨hkeep, hsubst⟩ := transportChecksum_udp c now b e payload rfl
  by_cases hz : ~~~transportSum c now .udp b e payload = 0x0000#16
  · rw [hsubst hz h]
    decide
  · rwa [hkeep (.inl hz)]

/-- A TCP segment or UDP datagram verifies with its pseudo-header (R107, R153). -/
theorem pseudoSum_verifies (hp : p ≠ .icmp) :
    pseudoSum e.sip e.dip p.number (BitVec.ofNat 16 (headerLen p b + payloadLen p b))
      (transportHeader c now p b e (transportChecksum c now p b e payload) ++ payload) = 0xFFFF#16 := by
  have hfield := ((transportHeader_hasAlignedField c now p b e).append payload).prepend
    (bs := pseudoHeader e.sip e.dip p.number (BitVec.ofNat 16 (headerLen p b + payloadLen p b)))
    (by simp [pseudoHeader])
  cases p with
  | icmp => exact absurd rfl hp
  | tcp => exact hfield.ocsum_checksum
  | udp =>
    obtain ⟨hkeep, hsubst⟩ := transportChecksum_udp c now b e payload rfl
    by_cases hone : ~~~transportSum c now .udp b e payload = 0x0000#16 ∧ c.udpZeroSubst = true
    · obtain ⟨hz, hu⟩ := hone
      rw [hsubst hz hu]
      exact hfield.ocsum_ones hz
    · rw [not_and_or, Bool.not_eq_true] at hone
      rw [hkeep hone]
      exact hfield.ocsum_checksum

end Transport

/-! ### BUILD and REPLY from acceptance to the frame in BUF (R154, R155) -/

section Commands

variable {s t : State} {b : Scb} {p : Proto} {payload : List Byte}

theorem exec_build_sends (hb : s.scb? (s.argByte 0) = some b) (hp : Proto.ofNumber b.proto = some p)
    (hr : builderRangesOk s.cfg p b (s.argNat 1) (s.argNat 2) = true) (hcap : frameLen p b ≤ s.argNat 2)
    (hpay : payloadBytes s.buf p b = some payload) :
    ∃ t, exec .build s = .next t ∧
      FrameSent s t (s.argByte 0) p b (s.argNat 1) (frameBytes s.cfg s.now p b b.ends payload) :=
  ⟨_, (execBuild_checked hb hp hr hcap).trans (buildFrame_of_payload _ _ _ hpay),
    frameSent_emit _ hb (frameBytes_length _ _ _ (payloadBytes_length hpay))⟩

theorem exec_reply_sends {ihl : Nat} {e : Ends} (hb : s.scb? (s.argByte 0) = some b)
    (hin : s.argNat 1 + s.argNat 2 ≤ s.cfg.bufSize)
    (hr : builderRangesOk s.cfg .tcp b (s.argNat 3) (s.argNat 4) = true)
    (hi : inboundCheck s.buf (s.argNat 1) (s.argNat 2) = .good ihl) (hcap : frameLen .tcp b ≤ s.argNat 4)
    (he : replyEnds s.buf (s.argNat 1) ihl = some e) (hpay : payloadBytes s.buf .tcp b = some payload) :
    ∃ t, exec .reply s = .next t ∧
      FrameSent s t (s.argByte 0) .tcp b (s.argNat 3) (frameBytes s.cfg s.now .tcp b e payload) := by
  obtain ⟨-, hsome⟩ := execReply_of_good hb hin hr hi hcap
  exact ⟨_, (hsome e he).trans (buildFrame_of_payload _ _ _ hpay),
    frameSent_emit _ hb (frameBytes_length _ _ _ (payloadBytes_length hpay))⟩

theorem exec_reply_badRange (hb : s.scb? (s.argByte 0) = some b)
    (hr : ¬ (s.argNat 1 + s.argNat 2 ≤ s.cfg.bufSize ∧
      builderRangesOk s.cfg .tcp b (s.argNat 3) (s.argNat 4) = true)) :
    exec .reply s = .next (s.complete .badRange) := by
  rw [← rangeOk_iff, ← Bool.and_eq_true_iff] at hr
  simp only [exec, execReply, hb, if_neg hr, raise]

theorem exec_reply_badPacket (hb : s.scb? (s.argByte 0) = some b) (hin : s.argNat 1 + s.argNat 2 ≤ s.cfg.bufSize)
    (hr : builderRangesOk s.cfg .tcp b (s.argNat 3) (s.argNat 4) = true)
    (hi : inboundCheck s.buf (s.argNat 1) (s.argNat 2) = .bad) : exec .reply s = .next (s.complete .badPacket) := by
  simp only [exec, execReply, hb, rangeOk_iff.mpr hin, hr, Bool.and_self, if_true, hi, raise]

theorem exec_reply_allocFail {ihl : Nat} (hb : s.scb? (s.argByte 0) = some b)
    (hin : s.argNat 1 + s.argNat 2 ≤ s.cfg.bufSize)
    (hr : builderRangesOk s.cfg .tcp b (s.argNat 3) (s.argNat 4) = true)
    (hi : inboundCheck s.buf (s.argNat 1) (s.argNat 2) = .good ihl) (hcap : s.argNat 4 < frameLen .tcp b) :
    exec .reply s = .next (s.complete .allocFail) := by
  simp only [exec, execReply, hb, rangeOk_iff.mpr hin, hr, Bool.and_self, if_true, hi, if_pos hcap, raise]

/-- BUILD does nothing but complete with an error, or it sends the selected SCB's frame. -/
theorem exec_build_ends (h : exec .build s = .next t) : (t.err ≠ .ok ∧ t = s.complete t.err) ∨
    ∃ b p payload, s.scb? (s.argByte 0) = some b ∧ Proto.ofNumber b.proto = some p ∧
      payload.length = payloadLen p b ∧
      FrameSent s t (s.argByte 0) p b (s.argNat 1) (frameBytes s.cfg s.now p b b.ends payload) := by
  obtain ⟨-, rfl⟩ | ⟨b, hb, ⟨-, rfl⟩ | ⟨p, hp, ⟨-, rfl⟩ | ⟨-, ⟨-, rfl⟩ | ⟨-, payload, hpay, rfl⟩⟩⟩⟩ :=
    execBuild_cases h
  case inr.inr.inr.inr =>
    have hlen := payloadBytes_length hpay
    exact .inr ⟨b, p, payload, hb, hp, hlen, frameSent_emit _ hb (frameBytes_length _ _ _ hlen)⟩
  all_goals exact .inl ⟨by simp, rfl⟩

/-- REPLY does nothing but complete with an error, or it sends a TCP frame back. -/
theorem exec_reply_ends (h : exec .reply s = .next t) : (t.err ≠ .ok ∧ t = s.complete t.err) ∨
    ∃ b ihl e payload, s.scb? (s.argByte 0) = some b ∧ replyEnds s.buf (s.argNat 1) ihl = some e ∧
      payload.length = payloadLen .tcp b ∧
      FrameSent s t (s.argByte 0) .tcp b (s.argNat 3) (frameBytes s.cfg s.now .tcp b e payload) := by
  obtain ⟨-, rfl⟩ | ⟨b, hb, ⟨-, rfl⟩ | ⟨-, ⟨-, rfl⟩ | ⟨ihl, -, ⟨-, rfl⟩ | ⟨-, e, payload, he, hpay, rfl⟩⟩⟩⟩ :=
    execReply_cases h
  case inr.inr.inr.inr =>
    have hlen := payloadBytes_length hpay
    exact .inr ⟨b, ihl, e, payload, hb, he, hlen, frameSent_emit _ hb (frameBytes_length _ _ _ hlen)⟩
  all_goals exact .inl ⟨by simp, rfl⟩

/-- What the two commands have in common. -/
theorem exec_builder_ends {i : Instr} (hi : i = .build ∨ i = .reply) (h : exec i s = .next t) :
    (t.err ≠ .ok ∧ t = s.complete t.err) ∨
    ∃ b p e o payload, s.scb? (s.argByte 0) = some b ∧
      (i = .build → o = s.argNat 1) ∧ (i = .reply → o = s.argNat 3) ∧
      FrameSent s t (s.argByte 0) p b o (frameBytes s.cfg s.now p b e payload) := by
  obtain rfl | rfl := hi
  · refine (exec_build_ends h).imp_right ?_
    rintro ⟨b, p, payload, hb, -, -, hsent⟩
    exact ⟨b, p, b.ends, _, payload, hb, fun _ => rfl, nofun, hsent⟩
  · refine (exec_reply_ends h).imp_right ?_
    rintro ⟨b, _, e, payload, hb, -, -, hsent⟩
    exact ⟨b, .tcp, e, _, payload, hb, nofun, fun _ => rfl, hsent⟩

/-- REPLY's IPv4 addresses are the inbound frame's, swapped. -/
theorem replyEnds_ips {m : List Host.Cell} {k ihl : Nat} {e : Ends} (h : replyEnds m k ihl = some e) :
    ∃ dst src, Memory.readNat m (k + 30) 4 = some dst ∧ Memory.readNat m (k + 26) 4 = some src ∧
      e.sip = BitVec.ofNat 32 dst ∧ e.dip = BitVec.ofNat 32 src := by
  unfold replyEnds at h
  split at h
  · rename_i hsip hdip _ _
    obtain rfl := Option.some.inj h
    exact ⟨_, _, hsip, hdip, rfl, rfl⟩
  · cases h

end Commands

section SentFrame

variable {s t : State} {sel : Byte} {p : Proto} {b : Scb} {e : Ends} {o : Nat} {payload : List Byte}

/-- A sent frame stands in BUF. -/
theorem readBytes_of_frameSent {frame : List Byte} (h : FrameSent s t sel p b o frame) :
    Memory.readBytes t.buf o frame.length = some frame :=
  (readBytes_eq_some _ _ _ _).mpr ⟨rfl, h.inside⟩

/-- A sent frame's IPv4 header stands 14 bytes into it. -/
theorem readBytes_sent_ipHeader
    (h : FrameSent s t sel p b o (frameBytes s.cfg s.now p b e payload)) :
    Memory.readBytes t.buf (o + 14) 20 = some (ipHeader p b e (ipChecksum p b e)) := by
  have hlen : 14 + 20 ≤ (frameBytes s.cfg s.now p b e payload).length := by
    rw [h.length, frameLen, totalLen]
    omega
  rw [readBytes_slice (readBytes_of_frameSent h) hlen]
  exact congrArg some (slice_frameBytes_headers (by decide))

/-- A sent frame's transport part stands 34 bytes into it. -/
theorem readBytes_sent_transport (hpay : payload.length = payloadLen p b)
    (h : FrameSent s t sel p b o (frameBytes s.cfg s.now p b e payload)) :
    Memory.readBytes t.buf (o + 34) (headerLen p b + payloadLen p b) =
      some (transportHeader s.cfg s.now p b e (transportChecksum s.cfg s.now p b e payload) ++ payload) := by
  have hlen : 34 + (headerLen p b + payloadLen p b) ≤ (frameBytes s.cfg s.now p b e payload).length := by
    rw [h.length, frameLen, totalLen]
    omega
  rw [readBytes_slice (readBytes_of_frameSent h) hlen]
  refine congrArg some ((slice_frameBytes_transport s.cfg s.now p b e payload 0 _).trans ?_)
  exact List.take_of_length_le (by simp [hpay])

end SentFrame

/-! ### VALID and LAST_TICK (R160) -/

/-- An SCB with other values of VALID and LAST_TICK. -/
def Scb.setLiveness (b : Scb) (valid : Bool) (lastTick : Word) : Scb :=
  { b with valid := valid, lastTick := lastTick }

theorem setLiveness_proto (b : Scb) (v : Bool) (l : Word) : (b.setLiveness v l).proto = b.proto := rfl

theorem setLiveness_ends (b : Scb) (v : Bool) (l : Word) : (b.setLiveness v l).ends = b.ends := rfl

section Liveness

variable {s : State} {sel : Byte} {b : Scb} {v : Bool} {l : Word}

theorem withLiveness_of_none (h : s.scb? sel = none) : withLiveness sel v l s = s := by
  rw [withLiveness, h]

theorem withLiveness_of_some (h : s.scb? sel = some b) :
    withLiveness sel v l s = s.setScb sel (b.setLiveness v l) := by
  rw [withLiveness, h]
  rfl

@[simp] theorem withLiveness_cfg : (withLiveness sel v l s).cfg = s.cfg := by
  unfold withLiveness; split <;> simp
@[simp] theorem withLiveness_now : (withLiveness sel v l s).now = s.now := by
  unfold withLiveness; split <;> simp
@[simp] theorem withLiveness_buf : (withLiveness sel v l s).buf = s.buf := by
  unfold withLiveness; split <;> simp
@[simp] theorem withLiveness_latArgs : (withLiveness sel v l s).latArgs = s.latArgs := by
  unfold withLiveness; split <;> simp

@[simp] theorem withLiveness_argByte (k : Fin 8) : (withLiveness sel v l s).argByte k = s.argByte k := by
  simp [State.argByte, State.arg]

@[simp] theorem withLiveness_argNat (k : Fin 8) : (withLiveness sel v l s).argNat k = s.argNat k := by
  simp [State.argNat, State.arg]

theorem scb?_withLiveness (h : s.scb? sel = some b) :
    (withLiveness sel v l s).scb? sel = some (b.setLiveness v l) := by
  rw [withLiveness_of_some h, scb?_setScb_same s sel _ b h]

/-- Completion does not look at the SCBs. -/
theorem setScb_complete (d : Scb) (code : ErrCode) :
    (s.setScb sel d).complete code = (s.complete code).setScb sel d := by
  unfold State.setScb
  split <;> rfl

theorem withLiveness_complete (code : ErrCode) :
    (withLiveness sel v l s).complete code = withLiveness sel v l (s.complete code) := by
  cases h : s.scb? sel with
  | none => rw [withLiveness_of_none h, withLiveness_of_none (by rwa [complete_scb?])]
  | some b =>
    rw [withLiveness_of_some h, withLiveness_of_some (b := b) (by rwa [complete_scb?]), setScb_complete]

theorem raise_withLiveness (code : ErrCode) :
    raise code (withLiveness sel v l s) = mapNext (withLiveness sel v l) (raise code s) :=
  congrArg _ (withLiveness_complete code)

/-- An emission writes the liveness fields of the SCB it is given, whatever stood there. -/
theorem emit_withLiveness (h : s.scb? sel = some b) (p : Proto) (o : Nat) (frame : List Byte) :
    (withLiveness sel v l s).emit sel p (b.setLiveness v l) o frame =
      withLiveness sel v l (s.emit sel p b o frame) := by
  have hemit : (s.emit sel p b o frame).scb? sel = some { b with ipid := b.ipid + 1#16 } := by
    rw [emit_scb?, scb?_setScb_same s sel _ b h]
  rw [withLiveness_of_some h, withLiveness_of_some hemit]
  unfold State.emit State.setScb
  split
  · rfl
  · simp only [State.setRes, List.set_set]
    rfl

/-- No byte of a frame comes from VALID or LAST_TICK (R151). -/
theorem frameBytes_setLiveness (c : Config) (now : Word) (p : Proto) (e : Ends) (payload : List Byte) :
    frameBytes c now p (b.setLiveness v l) e payload = frameBytes c now p b e payload := by cases p <;> rfl

theorem payloadBytes_setLiveness (m : List Host.Cell) (p : Proto) :
    payloadBytes m p (b.setLiveness v l) = payloadBytes m p b := rfl

theorem buildFrame_withLiveness (h : s.scb? sel = some b) (p : Proto) (e : Ends) (o : Nat) :
    buildFrame (withLiveness sel v l s) sel p (b.setLiveness v l) e o =
      mapNext (withLiveness sel v l) (buildFrame s sel p b e o) := by
  simp only [buildFrame, withLiveness_buf, withLiveness_cfg, withLiveness_now, frameBytes_setLiveness,
    payloadBytes_setLiveness, emit_withLiveness h]
  split
  · exact congrArg _ (withLiveness_complete .ok)
  · rfl

end Liveness

section LivenessCommands

variable {s : State} {b : Scb} {v : Bool} {l : Word}

theorem execBuild_withLiveness (hb : s.scb? (s.argByte 0) = some b) :
    execBuild (withLiveness (s.argByte 0) v l s) = mapNext (withLiveness (s.argByte 0) v l) (execBuild s) := by
  simp only [execBuild, withLiveness_argByte, withLiveness_argNat, withLiveness_cfg, scb?_withLiveness hb, hb,
    setLiveness_proto, setLiveness_ends, raise_withLiveness, buildFrame_withLiveness hb]
  split
  · rfl
  · exact ite_eq_mapNext Iff.rfl (ite_eq_mapNext Iff.rfl rfl rfl) rfl

theorem execReply_withLiveness (hb : s.scb? (s.argByte 0) = some b) :
    execReply (withLiveness (s.argByte 0) v l s) = mapNext (withLiveness (s.argByte 0) v l) (execReply s) := by
  simp only [execReply, withLiveness_argByte, withLiveness_argNat, withLiveness_cfg, withLiveness_buf,
    scb?_withLiveness hb, hb, raise_withLiveness, buildFrame_withLiveness hb]
  refine ite_eq_mapNext Iff.rfl ?_ rfl
  split
  · rfl
  · rfl
  · refine ite_eq_mapNext Iff.rfl rfl ?_
    split <;> rfl

/-- BUILD and REPLY act alike whatever VALID and LAST_TICK of the selected SCB are. -/
theorem exec_builder_withLiveness {i : Instr} (hi : i = .build ∨ i = .reply) :
    exec i (withLiveness (s.argByte 0) v l s) = mapNext (withLiveness (s.argByte 0) v l) (exec i s) := by
  cases hb : s.scb? (s.argByte 0) with
  | none =>
    have hbad : exec i s = .next (s.complete .badIndex) :=
      exec_badIndex hb (hi.imp_right .inl)
    rw [withLiveness_of_none hb, hbad, mapNext, withLiveness_of_none (by rwa [complete_scb?])]
  | some b =>
    obtain rfl | rfl := hi
    · exact execBuild_withLiveness hb
    · exact execReply_withLiveness hb

end LivenessCommands

end Sys2Proof.Machine

namespace Sys2Proof.Proofs

open Sys2Proof Sys2Proof.Machine Sys2Proof.Safety

/-- Settles O48: past its checks BUILD emits the frame, whose addresses and ports are read off its headers. -/
theorem buildWritesFrame : Obligations.BuildWritesFrame := by
  refine ⟨rfl, fun s b p payload hb hp ho htx htl hcap hpay => ?_⟩
  obtain ⟨t, ht, hsent⟩ := exec_build_sends hb hp (builderRangesOk_iff.mpr ⟨ho, htx, htl⟩) hcap hpay
  refine ⟨t, _, ht, rfl, hsent, ?_, ?_, slice_frameBytes_ports s.cfg s.now p b b.ends payload⟩
  · exact (slice_frameBytes_headers (by decide)).trans rfl
  · exact (slice_frameBytes_headers (by decide)).trans rfl

/-- Settles O49: the inbound checks accept a TCP frame, and its addresses and ports read as its bytes spell them. -/
theorem replyWritesSwappedFrame : Obligations.ReplyWritesSwappedFrame := by
  refine ⟨rfl, fun s b f payload ihl hb hin ho htx htl hf htcp hcap hpay => ?_⟩
  exact exec_reply_sends hb hin (builderRangesOk_iff.mpr ⟨ho, htx, htl⟩) (inboundCheck_of_tcpFrame hf htcp) hcap
    (replyEnds_of_tcpFrame hf htcp) hpay

/-- Settles O50: each check fails with its error once those before it passed. -/
theorem buildCheckOrder : Obligations.BuildCheckOrder := by
  refine ⟨fun n => ⟨?icmp, ?tcp, ?udp, fun p => proto_ofNumber_eq_some⟩,
    fun s => ⟨fun hb => exec_badIndex hb (.inl rfl),
      fun b hb => ⟨exec_build_badProto hb, fun p hp outside hout => ⟨fun h => ?range, fun h => ?alloc⟩⟩⟩⟩
  case range => exact exec_build_badRange hb hp (not_builderRangesOk_iff.mpr (hout.mp h))
  case alloc => exact exec_build_allocFail hb hp (not_not.mp (mt (hout.mpr ∘ not_builderRangesOk_iff.mp) h))
  all_goals exact proto_ofNumber_eq_some.trans eq_comm

/-- Settles O51: each check fails with its error once those before it passed, the inbound ones on the region's
bytes. -/
theorem replyCheckOrder : Obligations.ReplyCheckOrder := by
  refine fun s => ⟨fun hb => exec_badIndex hb (.inr (.inl rfl)), fun b hb outside hout => ?_⟩
  have hranges : outside ↔ ¬ (s.argNat 1 + s.argNat 2 ≤ s.cfg.bufSize ∧
      builderRangesOk s.cfg .tcp b (s.argNat 3) (s.argNat 4) = true) := by
    rw [hout, not_and_or, Nat.not_le, not_builderRangesOk_iff]
  refine ⟨fun h => exec_reply_badRange hb (hranges.mp h), fun f h hf => ?_⟩
  obtain ⟨hin, hr⟩ := not_not.mp (mt hranges.mpr h)
  exact ⟨fun hbad => exec_reply_badPacket hb hin hr (inboundCheck_of_not_tcpFrame hf hbad),
    fun ihl htcp hcap => exec_reply_allocFail hb hin hr (inboundCheck_of_tcpFrame hf htcp) hcap⟩

/-- Settles O55: the header in BUF is the frame's, with its checksum in its aligned field. -/
theorem writtenIpHeaderVerifies : Obligations.WrittenIpHeaderVerifies := by
  intro i s t hi h hok
  obtain ⟨herr, -⟩ | ⟨b, p, e, o, payload, -, hbuild, hreply, hsent⟩ := exec_builder_ends hi h
  · exact absurd hok herr
  · have hsum := (ipHeader_hasAlignedField p b e).ocsum_checksum
    exact ⟨o, _, hbuild, hreply, readBytes_sent_ipHeader hsent, hsum, checksum_of_ocsum hsum⟩

/-- Settles O56: the transport part in BUF is the frame's, with its checksum in its aligned field. -/
theorem writtenTransportVerifies : Obligations.WrittenTransportVerifies := by
  refine ⟨fun s t b p hb hp h hok => ?build, fun s t b hb h hok => ?reply⟩
  case build =>
    obtain ⟨herr, -⟩ | ⟨b', p', payload, hb', hp', hlen, hsent⟩ := exec_build_ends h
    · exact absurd hok herr
    obtain rfl : b = b' := Option.some.inj (hb.symm.trans hb')
    obtain rfl : p = p' := Option.some.inj (hp.symm.trans hp')
    refine ⟨_, readBytes_sent_transport hlen hsent, ?_, fun hne => ?_, ?_⟩
    · rintro rfl
      exact icmp_verifies s.cfg s.now b b.ends payload
    · rw [← proto_ofNumber_eq_some.mp hp]
      exact pseudoSum_verifies s.cfg s.now p b b.ends payload hne
    · rintro rfl hu hzero
      have hfield : be16 (transportChecksum s.cfg s.now .udp b b.ends payload) = be16 0x0000#16 := hzero
      exact transportChecksum_udp_ne_zero s.cfg s.now b b.ends payload hu (be16_injective hfield)
  case reply =>
    obtain ⟨herr, -⟩ | ⟨b', ihl, e, payload, hb', he, hlen, hsent⟩ := exec_reply_ends h
    · exact absurd hok herr
    obtain rfl : b = b' := Option.some.inj (hb.symm.trans hb')
    obtain ⟨dst, src, hdst, hsrc, hsip, hdip⟩ := replyEnds_ips he
    refine ⟨_, dst, src, readBytes_sent_transport hlen hsent, hdst, hsrc, ?_⟩
    rw [← hsip, ← hdip]
    exact pseudoSum_verifies s.cfg s.now .tcp b e payload nofun

/-- Settles O57: an error writes no SCB, a sent frame advances the selected one's IPID, and both commands commute with
other values of VALID and LAST_TICK. -/
theorem builderIgnoresLivenessAndChangesOnlyIpid : Obligations.BuilderIgnoresLivenessAndChangesOnlyIpid := by
  refine fun i s hi => ⟨fun t sel b h hb => ?_, fun v l => exec_builder_withLiveness hi⟩
  obtain ⟨herr, ht⟩ | ⟨b', p, e, o, payload, hb', -, -, hsent⟩ := exec_builder_ends hi h
  · rw [ht, complete_scb?, hb, complete_err, if_neg fun hand => herr hand.2]
  · obtain ⟨hok, -⟩ := hsent.status
    by_cases hsel : sel = s.argByte 0
    · subst hsel
      obtain rfl : b = b' := Option.some.inj (hb.symm.trans hb')
      rw [hsent.ipid, if_pos ⟨rfl, hok⟩]
    · rw [hsent.otherScbs sel hsel, hb, if_neg fun hand => hsel hand.1]

/-- Settles O53: the transport header's fields are read off its bytes behind the other headers. -/
theorem transportLayout : Obligations.TransportLayout := by
  intro c now b e payload f
  refine ⟨?icmp, ?udp, ?tcp, rfl, rfl, fun ck hck => transportChecksum_udp c now b e payload hck⟩
  case icmp =>
    rintro rfl
    have part := slice_frameBytes_transport c now .icmp b e payload
    exact ⟨part 0 2, part 2 2, part 4 2, part 6 2, drop_frameBytes c now .icmp b e payload 8⟩
  case udp =>
    rintro rfl
    have part := slice_frameBytes_transport c now .udp b e payload
    exact ⟨part 0 2, part 2 2, part 4 2, part 6 2, drop_frameBytes c now .udp b e payload 8⟩
  case tcp =>
    rintro rfl
    have part := slice_frameBytes_transport c now .tcp b e payload
    rw [← dataOffset_eq]
    exact ⟨part 0 2, part 2 2, part 4 4, part 8 4, part 12 2, part 14 2, part 16 2, part 18 2,
      drop_frameBytes c now .tcp b e payload 20⟩

/-- Settles O54: the clamp by its cases, the filler by its index, the caller's bytes by the laws of BUF. -/
theorem payloadClampAndFiller : Obligations.PayloadClampAndFiller := by
  refine ⟨fun b => ⟨payloadLen_of_ne_tcp b nofun, payloadLen_of_ne_tcp b nofun, payloadLen_tcp_unknown,
    payloadLen_tcp_known⟩, fun m p b htx => ?filler, fun m p b htx hwritten => ?caller⟩
  case filler => exact ⟨_, if_pos htx, filler_length _, fun k => filler_getElem?⟩
  case caller =>
    obtain ⟨bs, hbs⟩ := readBytes_isSome hwritten
    obtain ⟨hlen, hread⟩ := (readBytes_eq_some _ _ _ _).mp hbs
    exact ⟨bs, (if_neg htx).trans hbs, hlen, fun k hk => (hread k hk).symm⟩

end Sys2Proof.Proofs

/-! ## Proofs: session table (spec 43_session_table.md) -/

namespace Sys2Proof.Machine

open Sys2Proof Sys2Proof.Safety

/-! ### Liveness, 4-tuples and ages (R45, R181, R182) -/

/-- An SCB is live exactly when it is valid and not older than SESS_TIMEOUT (R181). -/
theorem scb_live_iff {c : Config} {now : Word} {b : Scb} :
    b.live c now = true ↔ b.valid = true ∧ age c now b.lastTick ≤ c.sessTimeout := by
  simp only [Scb.live, Bool.and_eq_true, decide_eq_true_eq]

/-- The segment's source is the SCB's remote end (R182). -/
theorem scb_hasTuple_iff {b : Scb} {x : Tuple} :
    b.hasTuple x = true ↔ b.rip = x.sip ∧ b.lip = x.dip ∧ b.rport = x.sport ∧ b.lport = x.dport := by
  simp only [Scb.hasTuple, Bool.and_eq_true, beq_iff_eq, and_assoc]

/-- A zeroed SCB is free at every tick (R189). -/
theorem zero_not_live (c : Config) (now : Word) : Scb.zero.live c now = false := rfl

/-- A newly allocated slot holds the tuple it was allocated for, and no other (R185). -/
theorem newScb_hasTuple_iff {x y : Tuple} {isn now : Word} : (newScb x isn now).hasTuple y = true ↔ y = x := by
  rw [scb_hasTuple_iff]
  constructor
  · rintro ⟨hsip, hdip, hsport, hdport⟩
    cases x
    cases y
    simp_all [newScb]
  · rintro rfl
    exact ⟨rfl, rfl, rfl, rfl⟩

/-- The difference of two words as an integer. -/
theorem toNat_sub_int (v w : Word) : ((v - w).toNat : Int) = ((v.toNat : Int) - (w.toNat : Int)) % 2 ^ 32 := by
  rw [BitVec.toNat_sub]
  omega

/-- The age is the difference of the two ticks modulo `2^TICK_BITS` (R45). -/
theorem age_int {c : Config} (h : c.tickBits ≤ 32) (now t : Word) :
    (age c now t : Int) = ((now.toNat : Int) - (t.toNat : Int)) % 2 ^ c.tickBits := by
  rw [age, Int.natCast_mod, toNat_sub_int]
  push_cast
  exact Int.emod_emod_of_dvd _ (pow_dvd_pow 2 h)

/-- After `d` more ticks an age is `d` more, modulo `2^TICK_BITS`. -/
theorem age_advance {c : Config} (h : c.tickBits ≤ 32) (now d t : Word) :
    age c (tickValue c (now + d)) t = (age c now t + d.toNat) % 2 ^ c.tickBits := by
  have htick : (tickValue c (now + d)).toNat = (now.toNat + d.toNat) % 2 ^ c.tickBits := by
    rw [tickValue_toNat, BitVec.toNat_add]
    exact Nat.mod_mod_of_dvd _ (Nat.pow_dvd_pow 2 h)
  zify
  rw [age_int h, age_int h, htick]
  push_cast
  rw [Int.emod_sub_emod, Int.emod_add_emod]
  congr 1
  omega

/-- Ticks make no slot live while its age does not wrap (R190). -/
theorem live_of_live_advance {c : Config} (h : c.tickBits ≤ 32) {now d : Word} {b : Scb}
    (hwrap : b.valid = true → age c now b.lastTick + d.toNat < 2 ^ c.tickBits)
    (hl : b.live c (tickValue c (now + d)) = true) : b.live c now = true := by
  obtain ⟨hv, hage⟩ := scb_live_iff.mp hl
  rw [age_advance h, Nat.mod_eq_of_lt (hwrap hv)] at hage
  exact scb_live_iff.mpr ⟨hv, by omega⟩

/-! ### SESS_FIND's searches (R183, R192) -/

theorem sessHit_eq_some {s : State} {x : Tuple} {i : Nat} :
    s.sessHit x = some i ↔
      ∃ b, s.sess[i]? = some b ∧ (b.live s.cfg s.now = true ∧ b.hasTuple x = true) ∧
        ∀ j d, j < i → s.sess[j]? = some d → ¬ (d.live s.cfg s.now = true ∧ d.hasTuple x = true) := by
  simp only [State.sessHit, lowest_eq_some, ← Bool.and_eq_true, Bool.not_eq_true]

theorem sessHit_eq_none {s : State} {x : Tuple} :
    s.sessHit x = none ↔ ∀ d ∈ s.sess, ¬ (d.live s.cfg s.now = true ∧ d.hasTuple x = true) := by
  simp only [State.sessHit, lowest_eq_none, ← Bool.and_eq_true, Bool.not_eq_true]

theorem sessFree?_eq_some {s : State} {i : Nat} :
    s.sessFree? = some i ↔
      ∃ b, s.sess[i]? = some b ∧ ¬ b.live s.cfg s.now = true ∧
        ∀ j d, j < i → s.sess[j]? = some d → d.live s.cfg s.now = true := by
  simp only [State.sessFree?, lowest_eq_some, Bool.not_eq_true', Bool.not_eq_false', Bool.not_eq_true]

/-- The slots of the table are register values other than the OSCB's selector (R5, R34: SESS_ENTRIES is at most
254). -/
theorem ofNat_slot_ne_outbound {s : State} {i : Nat} {b : Scb} (hs : NseInv s) (hb : s.sess[i]? = some b) :
    BitVec.ofNat 32 i ≠ 0xFF#32 := by
  obtain ⟨-, hle, -⟩ := legal_iff.mp hs.cfgLegal
  obtain ⟨hlt, -⟩ := List.getElem?_eq_some_iff.mp hb
  rw [hs.sessLength] at hlt
  intro heq
  have hnat : i % 2 ^ 32 = 255 := by simpa using congrArg BitVec.toNat heq
  omega

/-! ### Allocation and the ISN input (R185, R186) -/

/-- An allocation writes one slot and takes one value from the ISN input. -/
theorem allocate_eq (s : State) (j : Nat) (x : Tuple) :
    s.allocate j x =
      { s with
        isnInputs := s.takeIsn.isnInputs, isnDraws := s.takeIsn.isnDraws,
        sess := s.sess.set j (newScb x s.isn s.now) } := by
  unfold State.allocate State.takeIsn State.setSlot
  dsimp only
  split <;> rfl

/-- A listed value is the next one, and leaves the list. -/
theorem isn_of_cons {s : State} {v : Word} {rest : List Word} (h : s.isnInputs = v :: rest) :
    s.isn = v ∧ s.takeIsn.isnInputs = rest ∧ s.takeIsn.isnDraws = s.isnDraws := by
  simp [State.isn, State.takeIsn, h]

/-- With no value listed the draw is counted. -/
theorem takeIsn_of_nil {s : State} (h : s.isnInputs = []) :
    s.takeIsn.isnInputs = [] ∧ s.takeIsn.isnDraws = s.isnDraws + 1 := by
  simp [State.takeIsn, h]

/-! ### SESS_FIND's answer (R183) -/

theorem exec_sessFind_hit {s : State} {i : Nat} (syn : Bool) (h : s.sessHit s.argTuple = some i) :
    exec (.sessFind syn) s = .next ((s.setFound (BitVec.ofNat 32 i) 0#32).complete .ok) := by
  simp only [exec, execSessFind, h, succeed]

theorem exec_sessFind_none {s : State} (h : s.sessHit s.argTuple = none) :
    exec (.sessFind false) s = .next ((s.setFound noIndex 2#32).complete .ok) := by
  simp only [exec, execSessFind, h, Bool.false_eq_true, if_false, succeed]

theorem exec_sessFind_allocated {s : State} {j : Nat} (h : s.sessHit s.argTuple = none) (hj : s.sessFree? = some j) :
    exec (.sessFind true) s =
      .next (((s.allocate j s.argTuple).setFound (BitVec.ofNat 32 j) 1#32).complete .ok) := by
  simp only [exec, execSessFind, h, hj, if_true, succeed]

/-! ### SESS_FIND and the OSCB (R191) -/

/-- The same state with another outbound SCB. -/
def State.withOscb (b : Scb) (s : State) : State := { s with oscb := b }

theorem allocate_withOscb (s : State) (b : Scb) (j : Nat) (x : Tuple) :
    (s.withOscb b).allocate j x = (s.allocate j x).withOscb b := by
  rw [allocate_eq, allocate_eq]
  unfold State.takeIsn State.withOscb
  dsimp only
  split <;> rfl

/-- SESS_FIND acts alike whatever the OSCB is: its searches have the same value by definition. -/
theorem exec_sessFind_withOscb (syn : Bool) (s : State) (b : Scb) :
    exec (.sessFind syn) (s.withOscb b) = mapNext (State.withOscb b) (exec (.sessFind syn) s) := by
  have hhit : ∀ x, (s.withOscb b).sessHit x = s.sessHit x := fun _ => rfl
  have hfree : (s.withOscb b).sessFree? = s.sessFree? := rfl
  have htuple : (s.withOscb b).argTuple = s.argTuple := rfl
  simp only [exec, execSessFind, hhit, hfree, htuple, allocate_withOscb]
  split
  · rfl
  · refine ite_eq_mapNext Iff.rfl ?_ rfl
    split <;> rfl

/-- SESS_FIND leaves the OSCB as it is. -/
theorem exec_sessFind_oscb {syn : Bool} {s t : State} (h : exec (.sessFind syn) s = .next t) : t.oscb = s.oscb := by
  obtain ⟨_, -, rfl⟩ | ⟨-, ⟨-, rfl⟩ | ⟨-, _, -, rfl⟩ | ⟨-, -, rfl⟩⟩ := execSessFind_cases h
  case inr.inr.inl => rw [allocate_eq]; rfl
  all_goals rfl

/-- RES0 of SESS_FIND is the index of a slot, or the value that stands for none. -/
theorem exec_sessFind_res {syn : Bool} {s t : State} (h : exec (.sessFind syn) s = .next t) :
    (∃ i b, s.sess[i]? = some b ∧ t.res[0] = BitVec.ofNat 32 i) ∨ t.res[0] = noIndex := by
  obtain ⟨i, hi, rfl⟩ | ⟨-, ⟨-, rfl⟩ | ⟨-, j, hj, rfl⟩ | ⟨-, -, rfl⟩⟩ := execSessFind_cases h
  · obtain ⟨b, hb, -⟩ := sessHit_eq_some.mp hi
    exact .inl ⟨i, b, hb, by simp [State.setFound]⟩
  · exact .inr (by simp [State.setFound])
  · obtain ⟨b, hb, -⟩ := sessFree?_eq_some.mp hj
    exact .inl ⟨j, b, hb, by simp [State.setFound]⟩
  · exact .inr (by simp [State.setFound])

/-! ### SESS_READ, SESS_WRITE and SESS_FREE (R187 to R189) -/

section SelectedScb

variable {s : State} {b : Scb}

theorem exec_sessRead_field {f : ScbField} (hb : s.scb? (s.argByte 0) = some b)
    (hf : ScbField.ofIndex (s.argByte 1) = some f) :
    exec .sessRead s = .next ((s.setRes 0 (b.get f)).complete .ok) := by
  have hlive : s.argByte 1 ≠ liveIndex := by
    intro heq
    rw [heq] at hf
    exact absurd hf nofun
  simp only [exec, execSessRead, hb, if_neg hlive, hf, succeed]

theorem exec_sessRead_live (hb : s.scb? (s.argByte 0) = some b) (hf : s.argByte 1 = liveIndex) :
    exec .sessRead s = .next ((s.setRes 0 (bit (s.liveField (s.argByte 0) b))).complete .ok) := by
  simp only [exec, execSessRead, hb, if_pos hf, succeed]

theorem exec_sessRead_badField (hb : s.scb? (s.argByte 0) = some b) (hf : 0x1A < (s.argByte 1).toNat) :
    exec .sessRead s = .next (s.complete .badField) := by
  have hlive : s.argByte 1 ≠ liveIndex := by
    intro heq
    rw [heq] at hf
    exact absurd hf (by decide)
  simp only [exec, execSessRead, hb, if_neg hlive, scbField_ofIndex_eq_none (Nat.le_of_lt hf), raise]

theorem exec_sessWrite_field {f : ScbField} (stamp : Bool) (hb : s.scb? (s.argByte 0) = some b)
    (hf : ScbField.ofIndex (s.argByte 1) = some f) :
    exec (.sessWrite stamp) s =
      .next ((s.setScb (s.argByte 0) ((b.put f (s.arg 2)).stampIf stamp s.now)).complete .ok) := by
  simp only [exec, execSessWrite, hb, hf, succeed]

theorem exec_sessWrite_badField (stamp : Bool) (hb : s.scb? (s.argByte 0) = some b)
    (hf : 0x1A ≤ (s.argByte 1).toNat) : exec (.sessWrite stamp) s = .next (s.complete .badField) := by
  simp only [exec, execSessWrite, hb, scbField_ofIndex_eq_none hf, raise]

theorem exec_sessFree_selected (hb : s.scb? (s.argByte 0) = some b) :
    exec .sessFree s = .next ((s.setScb (s.argByte 0) Scb.zero).complete .ok) := by
  simp only [exec, execSessFree, hb, succeed]

end SelectedScb

/-! ### Uniqueness in the session table (R37, R190) -/

/-- A slot written where no other live one holds its tuple keeps the table unique. -/
theorem sessUnique_set {c : Config} {now : Word} {l : List Scb} {i : Nat} {n : Scb} (hl : sessUnique c now l)
    (hn : ∀ j d x, n.live c now = true → n.hasTuple x = true → l[j]? = some d → d.live c now = true →
      d.hasTuple x = true → j = i) : sessUnique c now (l.set i n) := by
  have written : ∀ {j d}, (l.set i n)[j]? = some d → (j = i ∧ d = n) ∨ l[j]? = some d := by
    intro j d hj
    by_cases hji : j = i
    · subst hji
      obtain ⟨hlt, rfl⟩ := List.getElem?_eq_some_iff.mp hj
      exact .inl ⟨rfl, by simp⟩
    · exact .inr (by rwa [List.getElem?_set_ne (Ne.symm hji)] at hj)
  intro j k d e x hj hk hd he hdx hex
  obtain ⟨rfl, rfl⟩ | hjl := written hj <;> obtain ⟨rfl, rfl⟩ | hkl := written hk
  · rfl
  · exact (hn k e x hd hdx hkl he hex).symm
  · exact hn j d x he hex hjl hd hdx
  · exact hl j k d e x hjl hkl hd he hdx hex

/-- The fields liveness and the tuple are made of (R181, R182): those of `keyField`. -/
def Scb.key (b : Scb) : Bool × Word × Word × Half × Half × Word :=
  (b.valid, b.lip, b.rip, b.lport, b.rport, b.lastTick)

theorem live_of_key {b d : Scb} (h : d.key = b.key) (c : Config) (now : Word) : d.live c now = b.live c now := by
  simp only [Scb.key, Prod.mk.injEq] at h
  obtain ⟨hv, -, -, -, -, ht⟩ := h
  simp only [Scb.live, hv, ht]

theorem hasTuple_of_key {b d : Scb} (h : d.key = b.key) (x : Tuple) : d.hasTuple x = b.hasTuple x := by
  simp only [Scb.key, Prod.mk.injEq] at h
  obtain ⟨-, hlip, hrip, hlport, hrport, -⟩ := h
  simp only [Scb.hasTuple, hlip, hrip, hlport, hrport]

/-- A write to a field that is no key field keeps the key. -/
theorem put_key {f : ScbField} (h : keyField f = false) (b : Scb) (v : Word) : (b.put f v).key = b.key := by
  cases f with
  | valid | lip | rip | lport | rport | lastTick => cases h
  | _ => rfl

/-- The selected SCB written keeps the inbound table unique when it is the OSCB, or keeps its key. -/
theorem sessUnique_setScb {c : Config} {now : Word} {s : State} {sel : Byte} {b d : Scb}
    (hs : sessUnique c now s.sess) (hb : s.scb? sel = some b) (hd : sel ≠ 0xFF#8 → d.key = b.key) :
    sessUnique c now (s.setScb sel d).sess := by
  by_cases hsel : sel = 0xFF#8
  · subst hsel
    rwa [setScb_outbound]
  · rw [scb?_slot _ hsel] at hb
    rw [setScb_slot _ _ hsel]
    refine sessUnique_set hs fun j e x hl hx he hle hxe => ?_
    rw [live_of_key (hd hsel)] at hl
    rw [hasTuple_of_key (hd hsel)] at hx
    exact hs j sel.toNat e b x he hb hle hl hxe hx

/-- Freeing the selected SCB keeps the inbound table unique. -/
theorem sessUnique_setScb_zero {c : Config} {now : Word} {s : State} (sel : Byte) (hs : sessUnique c now s.sess) :
    sessUnique c now (s.setScb sel Scb.zero).sess := by
  by_cases hsel : sel = 0xFF#8
  · subst hsel
    rwa [setScb_outbound]
  · rw [setScb_slot _ _ hsel]
    exact sessUnique_set hs fun _ _ _ hl => absurd hl (by simp [zero_not_live])

/-- A frame's emission writes the inbound table as the step of IPID does (R156). -/
theorem emit_sess (s : State) (sel : Byte) (p : Proto) (b : Scb) (o : Nat) (frame : List Byte) :
    (s.emit sel p b o frame).sess = (s.setScb sel { b with ipid := b.ipid + 1#16 }).sess := by rw [emit_eq]

/-- The builder's step of IPID keeps the inbound table unique. -/
theorem sessUnique_emit {c : Config} {now : Word} {s : State} {sel : Byte} {b : Scb} (p : Proto) (o : Nat)
    (frame : List Byte) (hs : sessUnique c now s.sess) (hb : s.scb? sel = some b) :
    sessUnique c now (s.emit sel p b o frame).sess := by
  rw [emit_sess]
  exact sessUnique_setScb hs hb fun _ => rfl

/-- An allocation keeps the table unique when no live slot holds its tuple. -/
theorem sessUnique_allocate {s : State} {x : Tuple} (j : Nat) (hs : sessUnique s.cfg s.now s.sess)
    (hmiss : s.sessHit x = none) : sessUnique s.cfg s.now (s.allocate j x).sess := by
  rw [allocate_eq]
  refine sessUnique_set hs fun k d y _ hy hd hlive hdy => ?_
  obtain rfl := newScb_hasTuple_iff.mp hy
  exact absurd ⟨hlive, hdy⟩ (sessHit_eq_none.mp hmiss d (List.mem_of_getElem? hd))

/-- A SESS_WRITE that sets no key field of an inbound slot puts into it an SCB of the same key. -/
theorem stampIf_put_key {stamp : Bool} {s : State} {f : ScbField} (hkey : ¬ setsSessionKey (.sessWrite stamp) s)
    (hf : ScbField.ofIndex (s.argByte 1) = some f) (hsel : s.argByte 0 ≠ 0xFF#8) (b : Scb) :
    ((b.put f (s.arg 2)).stampIf stamp s.now).key = b.key := by
  cases stamp with
  | true => exact absurd ⟨true, rfl, hsel, .inl rfl⟩ hkey
  | false =>
    refine put_key ?_ b _
    rw [← Bool.not_eq_true]
    exact fun hkf => hkey ⟨false, rfl, hsel, .inr ⟨f, hf, hkf⟩⟩

/-- Every command but a SESS_WRITE of a key keeps the session table unique at its tick. -/
theorem exec_keeps_sessUnique {i : Instr} {s t : State} (hs : sessUnique s.cfg s.now s.sess)
    (hkey : ¬ setsSessionKey i s) (h : exec i s = .next t) : sessUnique s.cfg s.now t.sess := by
  cases hi : writesScb i with
  | false =>
    obtain ⟨u, code, hu, rfl⟩ := exec_commandWrites h
    rwa [complete_sess, (hu.scbs_eq hi).1]
  | true =>
    cases i with
    | build =>
      obtain ⟨-, rfl⟩ | ⟨_, hb, ⟨-, rfl⟩ | ⟨_, -, ⟨-, rfl⟩ | ⟨-, ⟨-, rfl⟩ | ⟨-, _, -, rfl⟩⟩⟩⟩ := execBuild_cases h
      case inr.inr.inr.inr =>
        rw [complete_sess]
        exact sessUnique_emit _ _ _ hs hb
      all_goals exact hs
    | reply =>
      obtain ⟨-, rfl⟩ | ⟨_, hb, ⟨-, rfl⟩ | ⟨-, ⟨-, rfl⟩ | ⟨_, -, ⟨-, rfl⟩ | ⟨-, _, _, -, -, rfl⟩⟩⟩⟩ :=
        execReply_cases h
      case inr.inr.inr.inr =>
        rw [complete_sess]
        exact sessUnique_emit _ _ _ hs hb
      all_goals exact hs
    | sessFind syn =>
      obtain ⟨_, -, rfl⟩ | ⟨hmiss, ⟨-, rfl⟩ | ⟨-, j, -, rfl⟩ | ⟨-, -, rfl⟩⟩ := execSessFind_cases h
      case inr.inr.inl => exact sessUnique_allocate j hs hmiss
      all_goals exact hs
    | sessWrite stamp =>
      obtain ⟨-, rfl⟩ | ⟨b, hb, ⟨-, rfl⟩ | ⟨f, hf, rfl⟩⟩ := execSessWrite_cases h
      case inr.inr => exact sessUnique_setScb hs hb fun hsel => stampIf_put_key hkey hf hsel b
      all_goals exact hs
    | sessFree =>
      obtain ⟨-, rfl⟩ | ⟨_, -, rfl⟩ := execSessFree_cases h
      · exact hs
      · exact sessUnique_setScb_zero _ hs
    | _ => cases hi

/-- The passing of ticks keeps the table unique while no valid slot's age wraps. -/
theorem sessUnique_advance {c : Config} (h : c.tickBits ≤ 32) {now d : Word} {l : List Scb}
    (hl : sessUnique c now l)
    (hwrap : ∀ b ∈ l, b.valid = true → age c now b.lastTick + d.toNat < 2 ^ c.tickBits) :
    sessUnique c (tickValue c (now + d)) l := by
  have before : ∀ {j : Nat} {b : Scb}, l[j]? = some b → b.live c (tickValue c (now + d)) = true →
      b.live c now = true :=
    fun hb => live_of_live_advance h (hwrap _ (List.mem_of_getElem? hb))
  intro j k b e x hb he hlb hle
  exact hl j k b e x hb he (before hb hlb) (before he hle)

end Sys2Proof.Machine

namespace Sys2Proof.Proofs

open Sys2Proof Sys2Proof.Machine Sys2Proof.Safety

/-- Settles O41: what the two searches answer, and the slot and the ISN source after an allocation. -/
theorem sessFindResult : Obligations.SessFindResult := by
  refine ⟨rfl, rfl, fun s syn i b live hits hlive hhits => ?_⟩
  have live_iff : ∀ d, live d ↔ d.live s.cfg s.now = true := fun d => (hlive d).trans scb_live_iff.symm
  have hits_iff : ∀ d, hits d ↔ d.live s.cfg s.now = true ∧ d.hasTuple s.argTuple = true := fun d =>
    (hhits d).trans (and_congr (live_iff d) (scb_hasTuple_iff (x := s.argTuple)).symm)
  simp only [live_iff, hits_iff]
  refine ⟨fun hb hit hlow => ?hit, fun hmiss => ?none, fun hmiss hb hfree hlow => ?allocated⟩
  case hit => exact exec_sessFind_hit syn (sessHit_eq_some.mpr ⟨b, hb, hit, hlow⟩)
  case none => exact exec_sessFind_none (sessHit_eq_none.mpr hmiss)
  case allocated =>
    refine ⟨_, exec_sessFind_allocated (sessHit_eq_none.mpr hmiss) (sessFree?_eq_some.mpr ⟨b, hb, hfree, hlow⟩),
      ?_, ?_, ?_⟩
    · rw [allocate_eq]
      rfl
    · rw [allocate_eq]
      exact fun v rest => isn_of_cons
    · rw [allocate_eq]
      exact takeIsn_of_nil

/-- Settles O43: SESS_FIND commutes with another OSCB, keeps it, and answers the index of a slot or none. -/
theorem oscbIsOutsideTheScan : Obligations.OscbIsOutsideTheScan := by
  refine fun s syn b => ⟨exec_sessFind_withOscb syn s b, fun t hs h => ⟨exec_sessFind_oscb h, ?_⟩⟩
  obtain ⟨i, d, hd, hres⟩ | hres := exec_sessFind_res h
  · rw [hres]
    exact ofNat_slot_ne_outbound hs hd
  · rw [hres]
    decide

/-- Settles O47: what each command does to the table, and the age after more ticks. -/
theorem sessionsStayUnique : Obligations.SessionsStayUnique := by
  refine ⟨fun i s t hs hkey h => ?_, fun c now d l hc hl hwrap => ?_,
    fun c now t => ⟨tickValue_toNat c t, fun h => age_int h now t⟩, fun c now b x => ⟨scb_live_iff, scb_hasTuple_iff⟩⟩
  · obtain ⟨hcfg, -, -, -, -, -, -, -, -, -, -, -, hnow, -⟩ := exec_sameOutsideCommand h
    rw [hcfg, hnow]
    exact exec_keeps_sessUnique hs hkey h
  · obtain ⟨-, -, -, -, -, -, -, -, -, hle⟩ := legal_iff.mp hc
    exact sessUnique_advance hle hl hwrap

/-- Settles O44: the field, LIVE of the OSCB and of a slot, and the indices that name neither. -/
theorem sessReadResult : Obligations.SessReadResult := by
  refine ⟨rfl, fun s b hb => ⟨fun f hf => exec_sessRead_field hb hf, fun hf hsel => ?_, fun hf hsel => ?_,
    exec_sessRead_badField hb⟩⟩
  · rw [exec_sessRead_live hb hf, State.liveField, if_pos hsel]
  · rw [exec_sessRead_live hb hf, State.liveField, if_neg hsel]
    rfl

/-- Settles O45: the field write with its stamp, into the OSCB or a slot. -/
theorem sessWriteResult : Obligations.SessWriteResult := by
  refine ⟨rfl, rfl, fun s b stamp hb => ⟨fun f hf d hd => ?_, exec_sessWrite_badField stamp hb⟩⟩
  have hput : exec (.sessWrite stamp) s = .next ((s.setScb (s.argByte 0) d).complete .ok) := by
    rw [exec_sessWrite_field stamp hb hf, hd]
    rfl
  refine ⟨fun hsel => ?_, fun hsel => ?_⟩
  · rw [hput, hsel, setScb_outbound]
  · rw [hput, setScb_slot s d hsel]

/-- Settles O46: the selected SCB after the write of zeros, which is live at no tick. -/
theorem sessFreeResult : Obligations.SessFreeResult := by
  refine ⟨rfl, fun s b hb => ⟨fun hsel => ?_, fun hsel => ?_, fun t h => ?_⟩⟩
  · rw [exec_sessFree_selected hb, hsel, setScb_outbound]
  · rw [exec_sessFree_selected hb, setScb_slot s _ hsel]
  · obtain rfl : _ = t := Host.Outcome.next.inj ((exec_sessFree_selected hb).symm.trans h)
    exact ⟨by rw [complete_scb?, scb?_setScb_same s _ _ b hb], zero_not_live⟩

end Sys2Proof.Proofs

/-! ## Proofs: control commands (spec 44_control.md) -/

namespace Sys2Proof.Machine

open Sys2Proof

/-- R210: NOP's whole effect is the completion of a command without error. -/
theorem exec_nop (s : State) : exec .nop s = .next (s.complete .ok) := by
  change execNop s = _
  rw [execNop, succeed]

end Sys2Proof.Machine

namespace Sys2Proof.Proofs

open Sys2Proof Sys2Proof.Machine

/-- Settles O26: NOP's word has every field 0, and NOP's effect is an error-free completion. -/
theorem nopOnlyCompletes : Obligations.NopOnlyCompletes := by
  refine ⟨encode_eq_of_fields ?fields, fun s => ?effect⟩
  case fields => rfl
  case effect => rw [exec_nop, State.complete]

end Sys2Proof.Proofs

/-! ## Proofs: exceptions (spec 60_exceptions.md) -/

namespace Sys2Proof.Machine

open Sys2Proof Sys2Proof.Safety

/-! ### Steps as events (R75, R221) -/

theorem step_of_event {s : State} {e : Event} {rest : List Event} (h : s.agenda = e :: rest) :
    step s = perform e (s.withAgenda rest) := by
  simp only [step, h]

theorem step_of_engineTurn {s u : State} (h : engineTurn s u) : step s = engineStep u := by
  obtain ⟨ha, rfl⟩ | ⟨rest, ha, rfl⟩ := h
  · simp only [step, ha]
  · exact step_of_event ha

theorem engineStep_of_command {s : State} {i : Instr} (hp : s.pending = true) (hd : decode s.latCmd = .ok i) :
    engineStep s = exec i s := by
  simp only [engineStep, hp, hd, if_true]

/-! ### Writes to CMD (R22, R221, R229) -/

theorem writeCmd_of_idle {s : State} (h : s.busy = false) (w : Word) : s.writeCmd w = s.accept w := by
  simp only [State.writeCmd, h, Bool.false_eq_true, if_false]

theorem writeCmd_of_busy {s : State} (h : s.busy = true) (w : Word) : s.writeCmd w = { s with ovr := true } := by
  simp only [State.writeCmd, h, if_true]

/-- A CMD write sets OVR while BUSY, and never clears it. -/
theorem writeCmd_ovr (s : State) (w : Word) : (s.writeCmd w).ovr = (s.ovr || s.busy) := by
  cases hb : s.busy with
  | false => rw [writeCmd_of_idle hb, accept_ovr, Bool.or_false]
  | true => rw [writeCmd_of_busy hb, Bool.or_true]

/-- A CMD write clears DONE while idle, by its acceptance, and leaves it while BUSY. -/
theorem writeCmd_done (s : State) (w : Word) : (s.writeCmd w).done = (s.done && s.busy) := by
  cases hb : s.busy with
  | false => rw [writeCmd_of_idle hb, accept_done, Bool.and_false]
  | true => rw [writeCmd_of_busy hb, Bool.and_true]

/-! ### What clears DONE and OVR (R23, R227, R229, R254) -/

/-- DONE is not cleared, and OVR stays. -/
def keepsFlags (s t : State) : Prop := (s.done = true → t.done = true) ∧ t.ovr = s.ovr

theorem keepsFlags_of_eq {s t : State} (hdone : t.done = s.done) (hovr : t.ovr = s.ovr) : keepsFlags s t :=
  ⟨fun h => hdone.trans h, hovr⟩

theorem keepsFlags_readBuf (s : State) (a : Nat) : keepsFlags s (s.readBuf a) := by
  unfold State.readBuf
  split <;> exact keepsFlags_of_eq rfl rfl

/-- Of the registers only CMD, STATUS and, by a reset, CTRL reach DONE and OVR. -/
theorem writeReg_flags (s : State) (r : Reg) (v : Word) :
    (r = .ctrl ∧ v.getLsbD 1 = true) ∨ r = .cmd ∨ r = .status ∨ keepsFlags s (s.writeReg r v) := by
  cases r with
  | cmd => exact .inr (.inl rfl)
  | status => exact .inr (.inr (.inl rfl))
  | ctrl =>
    cases hv : v.getLsbD 1 with
    | true => exact .inl ⟨rfl, rfl⟩
    | false =>
      rw [State.writeReg, writeCtrl_of_noReset hv]
      exact .inr (.inr (.inr (keepsFlags_of_eq rfl rfl)))
  | _ => exact .inr (.inr (.inr (keepsFlags_of_eq rfl rfl)))

theorem hostAccess_flags {a : HostAccess} {s t : State} (h : hostAccess a s = .next t) :
    resetEvent (.host a) ∨ (∃ w, a = .regWrite 4 0x00 w ∧ t = s.writeCmd w) ∨
      (∃ v, a = .regWrite 4 0x04 v ∧ t = s.writeStatus v) ∨ keepsFlags s t := by
  obtain ⟨_, _, _, -, -, rfl⟩ | ⟨_, _, v, r, rfl, hr, rfl⟩ | ⟨_, -, -, -, rfl⟩ | ⟨_, _, -, -, -, rfl⟩ :=
    hostAccess_cases h
  · exact .inr (.inr (.inr (keepsFlags_of_eq rfl rfl)))
  · obtain ⟨rfl, hcmd, hstatus, hctrl⟩ := regAt_low hr
    obtain ⟨rfl, hv⟩ | rfl | rfl | hkeep := writeReg_flags s r v
    · obtain rfl := hctrl rfl
      exact .inl (.inr ⟨v, rfl, hv⟩)
    · obtain rfl := hcmd rfl
      exact .inr (.inl ⟨v, rfl, rfl⟩)
    · obtain rfl := hstatus rfl
      exact .inr (.inr (.inl ⟨v, rfl, rfl⟩))
    · exact .inr (.inr (.inr hkeep))
  · exact .inr (.inr (.inr (keepsFlags_readBuf _ _)))
  · exact .inr (.inr (.inr (keepsFlags_of_eq rfl rfl)))

/-! ### Completion (R221, R227, R228) -/

/-- A command that completes leaves DONE set, BUSY and `pending` clear, and the interrupt line at CTRL.IE. -/
theorem exec_completion {i : Instr} {s t : State} (h : exec i s = .next t) :
    t.done = true ∧ t.busy = false ∧ t.pending = false ∧ t.irq = s.ie := by
  obtain ⟨-, -, -, hie, -⟩ := exec_sameOutsideCommand h
  obtain ⟨u, code, rfl, -⟩ := exec_completes h
  exact ⟨rfl, rfl, rfl, by rw [State.irq, hie, complete_done, Bool.and_true]⟩

/-- So does the execution step of a pending word, which is a command's or raises ILLEGAL_CMD. -/
theorem engineStep_completion {s t : State} (hp : s.pending = true) (h : engineStep s = .next t) :
    t.done = true ∧ t.busy = false ∧ t.pending = false ∧ t.irq = s.ie := by
  obtain ⟨-, _, -, hx⟩ | ⟨-, -, rfl⟩ | ⟨hidle, -⟩ := engineStep_cases h
  · exact exec_completion hx
  · exact ⟨rfl, rfl, rfl, by rw [State.irq, complete_ie, complete_done, Bool.and_true]⟩
  · cases hp.symm.trans hidle

theorem engineStep_flags {s t : State} (h : engineStep s = .next t) : keepsFlags s t := by
  obtain ⟨-, _, -, hx⟩ | ⟨-, -, rfl⟩ | ⟨-, rfl⟩ := engineStep_cases h
  · obtain ⟨-, -, hovr, -⟩ := exec_sameOutsideCommand hx
    obtain ⟨hdone, -⟩ := exec_completion hx
    exact ⟨fun _ => hdone, hovr⟩
  · exact ⟨fun _ => rfl, rfl⟩
  · exact keepsFlags_of_eq rfl rfl

/-- An event that clears DONE or OVR is a reset, or a host write to CMD or STATUS. -/
theorem perform_flags {e : Event} {s t : State} (h : perform e s = .next t) :
    resetEvent e ∨ (∃ w, e = .host (.regWrite 4 0x00 w) ∧ t = s.writeCmd w) ∨
      (∃ v, e = .host (.regWrite 4 0x04 v) ∧ t = s.writeStatus v) ∨ keepsFlags s t := by
  obtain ⟨-, hx⟩ | ⟨-, rfl⟩ | ⟨rfl, -⟩ | ⟨_, rfl, ha⟩ := perform_cases h
  · exact .inr (.inr (.inr (engineStep_flags hx)))
  · exact .inr (.inr (.inr (keepsFlags_of_eq rfl rfl)))
  · exact .inl (.inl rfl)
  · simpa only [Event.host.injEq] using hostAccess_flags ha

theorem perform_clears_ovr {e : Event} {s t : State} (h : perform e s = .next t) (hs : s.ovr = true)
    (ht : t.ovr = false) :
    resetEvent e ∨ ∃ v : Word, e = .host (.regWrite 4 0x04 v) ∧ v.getLsbD 2 = true := by
  obtain hr | ⟨w, -, rfl⟩ | ⟨v, he, rfl⟩ | ⟨-, hovr⟩ := perform_flags h
  · exact .inl hr
  · rw [writeCmd_ovr, hs, Bool.true_or] at ht
    cases ht
  · exact .inr ⟨v, he, by simpa [State.writeStatus, hs] using ht⟩
  · cases ht.symm.trans (hovr.trans hs)

theorem perform_clears_done {e : Event} {s t : State} (h : perform e s = .next t) (hs : s.done = true)
    (ht : t.done = false) :
    resetEvent e ∨ (∃ v : Word, e = .host (.regWrite 4 0x04 v) ∧ v.getLsbD 1 = true) ∨
      ∃ w : Word, e = .host (.regWrite 4 0x00 w) ∧ s.busy = false := by
  obtain hr | ⟨w, he, rfl⟩ | ⟨v, he, rfl⟩ | ⟨hdone, -⟩ := perform_flags h
  · exact .inl hr
  · rw [writeCmd_done, hs, Bool.true_and] at ht
    exact .inr (.inr ⟨w, he, ht⟩)
  · exact .inr (.inl ⟨v, he, by simpa [State.writeStatus, hs] using ht⟩)
  · cases ht.symm.trans (hdone hs)

/-! ### The errors of each command (R222, R223, R224) -/

/-- R224 for the execution step: ILLEGAL_CMD is as precise as a command's own errors. -/
theorem engineStep_error_precise {s t : State} (hp : s.pending = true) (h : engineStep s = .next t)
    (hok : t.err ≠ .ok) (hfull : t.err ≠ .tableFull) : t = s.complete t.err := by
  obtain ⟨-, _, -, hx⟩ | ⟨-, -, rfl⟩ | ⟨hidle, -⟩ := engineStep_cases h
  · exact exec_error_precise hx hok hfull
  · rfl
  · cases hp.symm.trans hidle

/-- No error is always among the outcomes R222 allows. -/
theorem ok_mem_errorsOf (i : Instr) : ErrCode.ok ∈ errorsOf i := by
  cases i with
  | sessFind syn => cases syn <;> exact List.mem_cons_self
  | _ => exact List.mem_cons_self

theorem exec_err_mem {i : Instr} {s t : State} (h : exec i s = .next t) : t.err ∈ errorsOf i := by
  cases i with
  | nop => exact execNop_cases h ▸ ok_mem_errorsOf _
  | csum => obtain ⟨-, rfl⟩ | ⟨_, -, -, rfl⟩ := execCsum_cases h <;> simp [errorsOf]
  | csumFixup w => exact execCsumFixup_cases h ▸ ok_mem_errorsOf (.csumFixup w)
  | csumPseudo => obtain ⟨-, rfl⟩ | ⟨_, -, -, -, rfl⟩ := execCsumPseudo_cases h <;> simp [errorsOf]
  | arpLookup => exact execArpLookup_cases h ▸ ok_mem_errorsOf .arpLookup
  | arpUpdate => exact execArpUpdate_cases h ▸ ok_mem_errorsOf .arpUpdate
  | arpRead => obtain ⟨-, rfl⟩ | ⟨_, -, rfl⟩ := execArpRead_cases h <;> simp [errorsOf]
  | build =>
    obtain ⟨-, rfl⟩ | ⟨_, -, ⟨-, rfl⟩ | ⟨_, -, ⟨-, rfl⟩ | ⟨-, ⟨-, rfl⟩ | ⟨-, _, -, rfl⟩⟩⟩⟩ :=
      execBuild_cases h <;> simp [errorsOf]
  | reply =>
    obtain ⟨-, rfl⟩ | ⟨_, -, ⟨-, rfl⟩ | ⟨-, ⟨-, rfl⟩ | ⟨_, -, ⟨-, rfl⟩ | ⟨-, _, _, -, -, rfl⟩⟩⟩⟩ :=
      execReply_cases h <;> simp [errorsOf]
  | sessFind syn =>
    obtain ⟨_, -, rfl⟩ | ⟨-, ⟨-, rfl⟩ | ⟨-, _, -, rfl⟩ | ⟨rfl, -, rfl⟩⟩ := execSessFind_cases h
    case inr.inr.inr => simp [errorsOf]
    all_goals exact ok_mem_errorsOf (.sessFind syn)
  | sessRead => obtain ⟨-, rfl⟩ | ⟨_, -, ⟨_, rfl⟩ | rfl⟩ := execSessRead_cases h <;> simp [errorsOf]
  | sessWrite stamp =>
    obtain ⟨-, rfl⟩ | ⟨_, -, ⟨-, rfl⟩ | ⟨_, -, rfl⟩⟩ := execSessWrite_cases h <;> simp [errorsOf]
  | sessFree => obtain ⟨-, rfl⟩ | ⟨_, -, rfl⟩ := execSessFree_cases h <;> simp [errorsOf]

/-- The end of a command without error, as an answer. -/
theorem succeed_ends_ok (s : State) : ∃ t, succeed s = .next t ∧ t.err = .ok :=
  ⟨_, succeed_eq_next.mpr rfl, complete_err s .ok⟩

/-- A SESS_FIND without S completes without error: it finds a slot, or finds none. -/
theorem exec_sessFind_noSyn_ok (s : State) : ∃ t, exec (.sessFind false) s = .next t ∧ t.err = .ok := by
  cases hhit : s.sessHit s.argTuple with
  | none => exact ⟨_, exec_sessFind_none hhit, rfl⟩
  | some j => exact ⟨_, exec_sessFind_hit false hhit, rfl⟩

/-! ### TABLE_FULL (R226) -/

theorem sessFree?_eq_none {s : State} : s.sessFree? = none ↔ ∀ d ∈ s.sess, d.live s.cfg s.now = true := by
  simp only [State.sessFree?, lowest_eq_none, Bool.not_eq_false']

theorem exec_sessFind_tableFull {s : State} (h : s.sessHit s.argTuple = none) (hfree : s.sessFree? = none) :
    exec (.sessFind true) s = .next ((s.setFound noIndex 2#32).complete .tableFull) := by
  simp only [exec, execSessFind, h, hfree, if_true, raise]

end Sys2Proof.Machine

namespace Sys2Proof.Proofs

open Sys2Proof Sys2Proof.Machine Sys2Proof.Safety

/-- Settles O6: an overrun by what a CMD write does while BUSY, OVR's clearing by what each event does to it. -/
theorem overrunIsStickyAndHarmless : Obligations.OverrunIsStickyAndHarmless :=
  ⟨fun _ w hb => congrArg Host.Outcome.next (writeCmd_of_busy hb w), fun _ _ _ => perform_clears_ovr⟩

/-- Settles O7: the engine's turn keeps DONE, and of the events only the three listed clear it. -/
theorem doneIsClearedOnlyByHostOrReset : Obligations.DoneIsClearedOnlyByHostOrReset := by
  intro s t h hs ht
  obtain ⟨-, hx⟩ | ⟨e, rest, ha, hp⟩ := step_cases h
  · obtain ⟨hdone, -⟩ := engineStep_flags hx
    cases ht.symm.trans (hdone hs)
  · exact ⟨e, rest, ha, perform_clears_done (s := s.withAgenda rest) hp hs ht⟩

/-- Settles O8: each command ends in a completion, and CTRL.IE is outside what a command writes. -/
theorem completionSetsStatusAndInterrupt : Obligations.CompletionSetsStatusAndInterrupt :=
  ⟨fun _ _ _ => exec_completion, fun _ _ => engineStep_completion, fun _ => rfl, fun _ _ => rfl⟩

/-- Settles O9: a command that raises such an error does nothing but complete with it. -/
theorem errorsArePrecise : Obligations.ErrorsArePrecise :=
  ⟨fun _ _ _ => exec_error_precise, fun _ _ => engineStep_error_precise⟩

/-- Settles O10: the codes each command ends in, and the five kinds that answer without a check. -/
theorem commandsRaiseOnlyTheirErrors : Obligations.CommandsRaiseOnlyTheirErrors := by
  refine ⟨fun i s t => exec_err_mem, fun i s hi => ?_⟩
  obtain rfl | ⟨w, rfl⟩ | rfl | rfl | rfl := hi
  · exact ⟨_, exec_nop s, rfl⟩
  · exact ⟨_, exec_csumFixup w s, rfl⟩
  · exact succeed_ends_ok (s.setLookup (s.arpHit (s.arg 0)))
  · exact succeed_ends_ok (s.arpUpsert (s.arg 0) s.argMac)
  · exact exec_sessFind_noSyn_ok s

/-- Settles O4: the engine's turn is the engine's step, which runs the command a pending word decodes to. -/
theorem stepRunsDecodedCommand : Obligations.StepRunsDecodedCommand :=
  ⟨fun _ _ _ hturn hp hd => (step_of_engineTurn hturn).trans (engineStep_of_command hp hd),
    fun _ _ _ => step_of_event⟩

/-- Settles O5: the step is a CMD write, which while idle is the acceptance. -/
theorem cmdWriteWhileIdleIsAccepted : Obligations.CmdWriteWhileIdleIsAccepted := by
  intro s w rest ha hb
  rw [step_regWrite ha (r := .cmd) rfl, State.writeReg, writeCmd_of_idle (s := s.withAgenda rest) hb]
  rfl

/-- Settles O42: with every slot live and of another tuple, both searches of SESS_FIND answer none. -/
theorem tableFullWritesTwoResults : Obligations.TableFullWritesTwoResults := by
  intro s hs
  have hhit : s.sessHit s.argTuple = none := sessHit_eq_none.mpr fun d hd ⟨_, htuple⟩ => by
    obtain ⟨-, -, hother⟩ := hs d hd
    exact hother (scb_hasTuple_iff.mp htuple)
  have hfree : s.sessFree? = none := sessFree?_eq_none.mpr fun d hd => by
    obtain ⟨hvalid, hage, -⟩ := hs d hd
    exact scb_live_iff.mpr ⟨hvalid, hage⟩
  rw [exec_sessFind_tableFull hhit hfree]
  rfl

end Sys2Proof.Proofs

/-! ## Proofs: reset and hazards (spec 70_reset_and_hazards.md) -/

namespace Sys2Proof.Machine

open Sys2Proof Sys2Proof.Safety

/-! ### Both sources of reset (R250 to R253) -/

/-- The reset input and a 1 in CTRL.SRST have the one effect (R250). -/
theorem perform_reset {e : Event} (h : resetEvent e) (s : State) : perform e s = .next s.resetNse := by
  obtain rfl | ⟨v, rfl, hv⟩ := h
  · rfl
  · change Host.Outcome.next (s.writeCtrl v) = _
    rw [State.writeCtrl, if_pos hv]

/-- The power-on state is a fixed point of reset: what a reset keeps, it holds already. -/
theorem resetNse_reset : State.reset.resetNse = State.reset := rfl

/-- So every state after a reset, power-on included, is `resetNse` of some state. -/
theorem eq_resetNse_of_reset {t : State} (h : t = State.reset ∨ ∃ s e, resetEvent e ∧ perform e s = .next t) :
    ∃ s : State, t = s.resetNse := by
  obtain rfl | ⟨s, e, he, hp⟩ := h
  · exact ⟨State.reset, resetNse_reset.symm⟩
  · exact ⟨s, Host.Outcome.next.inj (hp.symm.trans (perform_reset he s))⟩

/-- After a reset every SCB a selector names is the zero one (R252). -/
theorem scb?_resetNse {s : State} {sel : Byte} {b : Scb} (h : s.resetNse.scb? sel = some b) : b = Scb.zero := by
  by_cases hsel : sel = 0xFF#8
  · rw [hsel, scb?_outbound, resetNse_oscb] at h
    exact (Option.some.inj h).symm
  · rw [scb?_slot _ hsel, resetNse_sess] at h
    exact List.eq_of_mem_replicate (List.mem_of_getElem? h)

/-- The zero SCB is live by neither reading of the LIVE pseudo-field (R36). -/
theorem liveField_zero (s : State) (sel : Byte) : s.liveField sel Scb.zero = false := by
  unfold State.liveField
  split
  · rfl
  · exact zero_not_live _ _

theorem scb_get_zero (f : ScbField) : Scb.zero.get f = 0#32 := by
  cases f <;> rfl

/-! ### The invariant after power-on -/

/-- This hardware's parameters are legal, whatever the open ones are (R5). -/
theorem thisHardware_legal : Config.thisHardware.legal = true := by
  have htimeout : Config.openSessTimeout.toNat < 2 ^ 32 := Config.openSessTimeout.isLt
  have harp : Config.openArpEntries.val < 255 := Config.openArpEntries.isLt
  refine legal_iff.mpr ⟨?_, ?_, htimeout, ?_, harp, ?_, ?_, ?_, ?_, ?_⟩ <;> simp [Config.thisHardware]

theorem nseInv_resetWith {c : Config} (h : c.legal = true) : NseInv (State.resetWith c) where
  cfgLegal := h
  sessLength := List.length_replicate
  arpLength := List.length_replicate
  bufWf := wf_nil _
  pendingIsBusy := rfl
  busyNotDone := nofun
  busyNoError := nofun
  pendingLatched := nofun
  arpUnique := arpUnique_replicate_zero _
  tickInRange := tickValue_lt _ _
  nowInRange := Nat.two_pow_pos _

/-! ### Runs of the machine -/

theorem run_succ_of_step {M : Host.Core} {s t : M.State} (h : M.step s = .next t) (n : Nat) :
    M.run (n + 1) s = M.run n t := by
  rw [Host.Core.run, h]

theorem run_one {M : Host.Core} (s : M.State) : M.run 1 s = M.step s := by
  rw [Host.Core.run]
  cases M.step s <;> rfl

/-- With no event left, one step runs the pending command (log entry 2). -/
theorem run_one_of_command {s : State} {i : Instr} (ha : s.agenda = []) (hp : s.pending = true)
    (hd : decode s.latCmd = .ok i) : core.run 1 s = (exec i s : Answer) := by
  have hturn : step s = engineStep s := step_of_engineTurn (.inl ⟨ha, rfl⟩)
  exact (run_one (M := core) s).trans (hturn.trans (engineStep_of_command hp hd))

/-! ### Between acceptance and execution (R258, R264) -/

/-- An event that may stand between a command's acceptance and its execution: a tick, a register read, or a write
to an ARG register. -/
def delaysOnly (e : Event) : Prop :=
  e = .tick ∨ (∃ off, off % 4 = 0 ∧ off < 256 ∧ e = .host (.regRead 4 off)) ∨
    ∃ (k : Fin 8) (v : Word), e = .host (.regWrite 4 (0x20 + 4 * k.val) v)

theorem regAt_arg (k : Fin 8) : regAt 4 (0x20 + 4 * k.val) = some (.arg k) := by
  revert k
  decide

/-- Such an event reaches ARG, the tick input and the host's last read alone: neither `pending` nor a latch. -/
theorem step_of_delaysOnly {s : State} {e : Event} {rest : List Event} (ha : s.agenda = e :: rest)
    (he : delaysOnly e) :
    ∃ args tick data, step s =
      .next { s with args := args, tick := tick, hostData := data, agenda := rest } := by
  obtain rfl | ⟨off, hmod, hlt, rfl⟩ | ⟨k, v, rfl⟩ := he
  · exact ⟨s.args, s.tickOnce.tick, s.hostData, step_of_event ha⟩
  · exact ⟨s.args, s.tick, _, step_regRead ha (if_pos ⟨rfl, hmod, hlt⟩)⟩
  · exact ⟨s.args.set k v, s.tick, s.hostData, step_regWrite ha (regAt_arg k)⟩

/-- A run through an agenda of such events. -/
theorem run_of_delaysOnly (agenda : List Event) (h : ∀ e ∈ agenda, delaysOnly e) :
    ∀ s : State, s.agenda = agenda → ∃ args tick data, ∀ n, core.run (agenda.length + n) s =
      core.run n { s with args := args, tick := tick, hostData := data, agenda := [] } := by
  induction agenda with
  | nil =>
    intro s ha
    exact ⟨s.args, s.tick, s.hostData, fun n => by rw [List.length_nil, Nat.zero_add, ← ha]⟩
  | cons e rest ih =>
    intro s ha
    obtain ⟨args₁, tick₁, data₁, hstep⟩ := step_of_delaysOnly ha (h e List.mem_cons_self)
    obtain ⟨args, tick, data, hrun⟩ := ih (fun x hx => h x (List.mem_cons_of_mem e hx))
      { s with args := args₁, tick := tick₁, hostData := data₁, agenda := rest } rfl
    refine ⟨args, tick, data, fun n => ?_⟩
    rw [List.length_cons, Nat.add_right_comm, run_succ_of_step (M := core) hstep, hrun]

end Sys2Proof.Machine

namespace Sys2Proof.Proofs

open Sys2Proof Sys2Proof.Machine Sys2Proof.Safety

/-- Settles O60: the run empties the agenda with `pending` and the latches untouched, and the next step is the
engine's. -/
theorem pendingCommandReachesExecution : Obligations.PendingCommandReachesExecution := by
  intro s i hp hd h
  obtain ⟨args, tick, data, hrun⟩ := run_of_delaysOnly s.agenda h s rfl
  exact ⟨args, tick, data, (hrun 1).trans (run_one_of_command rfl hp hd)⟩

/-- Settles O23: each row of R251's table, on the one state either reset leads to. -/
theorem resetClearsRegisters : Obligations.ResetClearsRegisters := by
  intro t ht
  obtain ⟨s, rfl⟩ := eq_resetNse_of_reset ht
  have hzero : ∀ i : Fin 8, (Vector.replicate 8 (0 : Word))[i] = 0 := fun i => Vector.getElem_replicate i.isLt
  have hstatus : s.resetNse.statusWord = 0 := BitVec.eq_of_toNat_eq (statusWord_toNat s.resetNse)
  exact ⟨rfl, hstatus, rfl, rfl, rfl, hzero, hzero, rfl, rfl, rfl, rfl, rfl, hzero, rfl, rfl, rfl, rfl, rfl⟩

/-- Settles O24: the tables are lists of zero entries, so what a selector names is zero and not live. -/
theorem resetClearsTables : Obligations.ResetClearsTables := by
  intro t ht
  obtain ⟨s, rfl⟩ := eq_resetNse_of_reset ht
  refine ⟨resetNse_sess s, resetNse_oscb s, resetNse_arp s, fun sel b hb => ?_, scb_get_zero, rfl⟩
  obtain rfl := scb?_resetNse hb
  exact ⟨rfl, liveField_zero _ _⟩

/-- Settles O25: the state both sources lead to, whose frame and handshake are the laws of `resetNse`. -/
theorem resetKeepsBufAndAbandonsCommand : Obligations.ResetKeepsBufAndAbandonsCommand :=
  fun s _ he => ⟨s.resetNse, perform_reset he s, resetNse_buf s, resetNse_tick s, resetNse_isnInputs s,
    resetNse_isnDraws s, resetNse_cfg s, resetNse_pending s, resetNse_busy s, resetNse_done s, rfl⟩

/-- Settles O59: legal parameters are all the invariant asks of power-on, and this hardware's are legal. -/
theorem resetHasInvariant : Obligations.ResetHasInvariant :=
  ⟨nseInv_resetWith thisHardware_legal, fun _ => nseInv_resetWith⟩

end Sys2Proof.Proofs
